-- ==== Sys2Proof/Word.lean ====
section
/-! DEFINITION. The byte and word types of the core (00_scope.md R5, R7, R8). Their slices, extensions and byte order stand
in Decode.lean. -/

namespace Sys2Proof

/-- `u8`: an unsigned 8-bit value (R7). Addition and subtraction wrap modulo 2^8 (R8). -/
abbrev Byte := BitVec 8

/-- `u16`: an unsigned 16-bit value (R7). Addition and subtraction wrap modulo 2^16 (R8). Addresses, SP and PC are words. -/
abbrev Word := BitVec 16

end Sys2Proof
end

