-- ==== Sys2Proof/Config.lean ====
section
/-! DEFINITION. What one construction of the core fixes (00_scope.md R6), and the free values `draw()` of R10. -/

namespace Sys2Proof

/-- `P_MAP_MODE` (20_memory.md R54): which image occupies the bottom of the map, fixed at construction. -/
inductive MapMode where
  | bootMap
  | cartridgeMap
deriving DecidableEq, Repr

/-- `P_IO` (20_memory.md R59): the I/O collaborator behind 0xFF00..0xFF4B. `storage` is the reference collaborator, plain
storage. `arbitrary` stands for every collaborator: each read is a draw, each write an event it receives. -/
inductive IoCollaborator where
  | storage
  | arbitrary
deriving DecidableEq, Repr

/-- `P_RL_NH` (44_rotate.md R230): what RL and RLA do to the flags N and H. -/
inductive RlFlags where
  | draw
  | unchanged
  | cleared
deriving DecidableEq, Repr

/-- The parameters a step reads. They are fixed at construction and no instruction reads or writes them as data
(10_state.md R34); State holds them so that every statement over all states covers every construction. -/
structure Params where
  mapMode : MapMode
  io : IoCollaborator
  rlNH : RlFlags
deriving DecidableEq, Repr

/-- `draw()` of a flag (00_scope.md R10; 44_rotate.md R230): the n-th free value of a run, as a flag. No body: nothing can be
proved of its value. DESIGN CHOICE (log 7), safe. -/
opaque Config.freeFlag : Nat → Bool

/-- What an arbitrary I/O collaborator answers to `get` (20_memory.md R59): the n-th free value of a run, for a read at an
address. No body: nothing can be proved of its value. DESIGN CHOICE (log 8), safe. -/
opaque Config.ioGet : Nat → Word → Byte

end Sys2Proof
end

