-- ==== Sys2Proof/Syntax.lean ====
section
/-! DEFINITION. The instructions: one constructor per row of spec/opcode_table.json. Register, pair and condition operands
are part of the opcode byte (30_encoding.md R86), so they are part of the constructor; immediates are its arguments. -/

namespace Sys2Proof

/-- The admitted instructions (30_encoding.md R82, R84), in the table's order. -/
inductive Instr where
  /-- R240: `NOP`, 0x00. -/
  | nop
  /-- R108: `LD BC,d16`, 0x01. -/
  | ldBcD16 (v : Word)
  /-- R112: `LD (BC),A`, 0x02. -/
  | ldMemBcA
  /-- R191: `INC BC`, 0x03. -/
  | incBc
  /-- R177: `INC B`, 0x04. -/
  | incB
  /-- R184: `DEC B`, 0x05. -/
  | decB
  /-- R101: `LD B,d8`, 0x06. -/
  | ldBD8 (d : Byte)
  /-- R116: `LD A,(BC)`, 0x0A. -/
  | ldAMemBc
  /-- R192: `DEC BC`, 0x0B. -/
  | decBc
  /-- R178: `INC C`, 0x0C. -/
  | incC
  /-- R185: `DEC C`, 0x0D. -/
  | decC
  /-- R102: `LD C,d8`, 0x0E. -/
  | ldCD8 (d : Byte)
  /-- R109: `LD DE,d16`, 0x11. -/
  | ldDeD16 (v : Word)
  /-- R113: `LD (DE),A`, 0x12. -/
  | ldMemDeA
  /-- R193: `INC DE`, 0x13. -/
  | incDe
  /-- R179: `INC D`, 0x14. -/
  | incD
  /-- R186: `DEC D`, 0x15. -/
  | decD
  /-- R103: `LD D,d8`, 0x16. -/
  | ldDD8 (d : Byte)
  /-- R231: `RLA`, 0x17. -/
  | rla
  /-- R141: `JR r8`, 0x18. -/
  | jr (o : Byte)
  /-- R117: `LD A,(DE)`, 0x1A. -/
  | ldAMemDe
  /-- R194: `DEC DE`, 0x1B. -/
  | decDe
  /-- R180: `INC E`, 0x1C. -/
  | incE
  /-- R187: `DEC E`, 0x1D. -/
  | decE
  /-- R104: `LD E,d8`, 0x1E. -/
  | ldED8 (d : Byte)
  /-- R142: `JR NZ,r8`, 0x20. -/
  | jrNz (o : Byte)
  /-- R110: `LD HL,d16`, 0x21. -/
  | ldHlD16 (v : Word)
  /-- R114: `LD (HL+),A`, 0x22. -/
  | ldMemHlIncA
  /-- R195: `INC HL`, 0x23. -/
  | incHl
  /-- R181: `INC H`, 0x24. -/
  | incH
  /-- R188: `DEC H`, 0x25. -/
  | decH
  /-- R105: `LD H,d8`, 0x26. -/
  | ldHD8 (d : Byte)
  /-- R143: `JR Z,r8`, 0x28. -/
  | jrZ (o : Byte)
  /-- R118: `LD A,(HL+)`, 0x2A. -/
  | ldAMemHlInc
  /-- R196: `DEC HL`, 0x2B. -/
  | decHl
  /-- R182: `INC L`, 0x2C. -/
  | incL
  /-- R189: `DEC L`, 0x2D. -/
  | decL
  /-- R106: `LD L,d8`, 0x2E. -/
  | ldLD8 (d : Byte)
  /-- R144: `JR NC,r8`, 0x30. -/
  | jrNc (o : Byte)
  /-- R111: `LD SP,d16`, 0x31. -/
  | ldSpD16 (v : Word)
  /-- R115: `LD (HL-),A`, 0x32. -/
  | ldMemHlDecA
  /-- R197: `INC SP`, 0x33. -/
  | incSp
  /-- R145: `JR C,r8`, 0x38. -/
  | jrC (o : Byte)
  /-- R119: `LD A,(HL-)`, 0x3A. -/
  | ldAMemHlDec
  /-- R198: `DEC SP`, 0x3B. -/
  | decSp
  /-- R183: `INC A`, 0x3C. -/
  | incA
  /-- R190: `DEC A`, 0x3D. -/
  | decA
  /-- R107: `LD A,d8`, 0x3E. -/
  | ldAD8 (d : Byte)
  /-- R120: `LD B,(HL)`, 0x46. -/
  | ldBMemHl
  /-- R121: `LD C,(HL)`, 0x4E. -/
  | ldCMemHl
  /-- R122: `LD D,(HL)`, 0x56. -/
  | ldDMemHl
  /-- R123: `LD E,(HL)`, 0x5E. -/
  | ldEMemHl
  /-- R124: `LD H,(HL)`, 0x66. -/
  | ldHMemHl
  /-- R125: `LD L,(HL)`, 0x6E. -/
  | ldLMemHl
  /-- R127: `LD (HL),B`, 0x70. -/
  | ldMemHlB
  /-- R128: `LD (HL),C`, 0x71. -/
  | ldMemHlC
  /-- R129: `LD (HL),D`, 0x72. -/
  | ldMemHlD
  /-- R130: `LD (HL),E`, 0x73. -/
  | ldMemHlE
  /-- R131: `LD (HL),H`, 0x74. -/
  | ldMemHlH
  /-- R132: `LD (HL),L`, 0x75. -/
  | ldMemHlL
  /-- R133: `LD (HL),A`, 0x77. -/
  | ldMemHlA
  /-- R126: `LD A,(HL)`, 0x7E. -/
  | ldAMemHl
  /-- R199: `SUB B`, 0x90. -/
  | subB
  /-- R200: `SUB C`, 0x91. -/
  | subC
  /-- R201: `SUB D`, 0x92. -/
  | subD
  /-- R202: `SUB E`, 0x93. -/
  | subE
  /-- R203: `SUB H`, 0x94. -/
  | subH
  /-- R204: `SUB L`, 0x95. -/
  | subL
  /-- R205: `SUB (HL)`, 0x96. -/
  | subMemHl
  /-- R206: `SUB A`, 0x97. -/
  | subA
  /-- R208: `XOR B`, 0xA8. -/
  | xorB
  /-- R209: `XOR C`, 0xA9. -/
  | xorC
  /-- R210: `XOR D`, 0xAA. -/
  | xorD
  /-- R211: `XOR E`, 0xAB. -/
  | xorE
  /-- R212: `XOR H`, 0xAC. -/
  | xorH
  /-- R213: `XOR L`, 0xAD. -/
  | xorL
  /-- R214: `XOR (HL)`, 0xAE. -/
  | xorMemHl
  /-- R215: `XOR A`, 0xAF. -/
  | xorA
  /-- R217: `CP B`, 0xB8. -/
  | cpB
  /-- R218: `CP C`, 0xB9. -/
  | cpC
  /-- R219: `CP D`, 0xBA. -/
  | cpD
  /-- R220: `CP E`, 0xBB. -/
  | cpE
  /-- R221: `CP H`, 0xBC. -/
  | cpH
  /-- R222: `CP L`, 0xBD. -/
  | cpL
  /-- R223: `CP (HL)`, 0xBE. -/
  | cpMemHl
  /-- R224: `CP A`, 0xBF. -/
  | cpA
  /-- R167: `POP BC`, 0xC1. -/
  | popBc
  /-- R147: `JP NZ,a16`, 0xC2. -/
  | jpNz (t : Word)
  /-- R146: `JP a16`, 0xC3. -/
  | jp (t : Word)
  /-- R163: `PUSH BC`, 0xC5. -/
  | pushBc
  /-- R152: `RET`, 0xC9. -/
  | ret
  /-- R148: `JP Z,a16`, 0xCA. -/
  | jpZ (t : Word)
  /-- R83, R90: the PREFIX marker 0xCB, with the byte `b` of its second fetch; well formed when `b` has no secondary entry (log 9). -/
  | cbPrefix (b : Byte)
  /-- R151: `CALL a16`, 0xCD. -/
  | call (t : Word)
  /-- R168: `POP DE`, 0xD1. -/
  | popDe
  /-- R149: `JP NC,a16`, 0xD2. -/
  | jpNc (t : Word)
  /-- R164: `PUSH DE`, 0xD5. -/
  | pushDe
  /-- R207: `SUB d8`, 0xD6. -/
  | subD8 (d : Byte)
  /-- R150: `JP C,a16`, 0xDA. -/
  | jpC (t : Word)
  /-- R134: `LDH (a8),A`, 0xE0. -/
  | ldhMemA (o : Byte)
  /-- R169: `POP HL`, 0xE1. -/
  | popHl
  /-- R136: `LD (C),A`, 0xE2. -/
  | ldMemCA
  /-- R165: `PUSH HL`, 0xE5. -/
  | pushHl
  /-- R216: `XOR d8`, 0xEE. -/
  | xorD8 (d : Byte)
  /-- R135: `LDH A,(a8)`, 0xF0. -/
  | ldhAMem (o : Byte)
  /-- R170: `POP AF`, 0xF1. -/
  | popAf
  /-- R137: `LD A,(C)`, 0xF2. -/
  | ldAMemC
  /-- R166: `PUSH AF`, 0xF5. -/
  | pushAf
  /-- R225: `CP d8`, 0xFE. -/
  | cpD8 (d : Byte)
  /-- R232: `RL B`, 0xCB 0x10. -/
  | rlB
  /-- R233: `RL C`, 0xCB 0x11. -/
  | rlC
  /-- R234: `RL D`, 0xCB 0x12. -/
  | rlD
  /-- R235: `RL E`, 0xCB 0x13. -/
  | rlE
  /-- R236: `RL H`, 0xCB 0x14. -/
  | rlH
  /-- R237: `RL L`, 0xCB 0x15. -/
  | rlL
  /-- R238: `RL A`, 0xCB 0x17. -/
  | rlA
deriving DecidableEq, Repr

end Sys2Proof
end

