-- ==== Sys2Proof/WellFormed.lean ====
section
/-! DEFINITION. Which instructions are well formed. -/

namespace Sys2Proof

/-- A byte with an entry in the secondary table (30_encoding.md R84): 0x10..0x15 and 0x17. -/
def hasSecondaryEntry (b : Byte) : Bool :=
  0x10 ≤ b && b ≤ 0x17 && b != 0x16

/-- Every operand of the admitted table may hold every value of its width (30_encoding.md R86, R93), but for the PREFIX marker:
it stands for 0xCB followed by a byte with no secondary entry, since 0xCB followed by an entry is that entry's instruction
(R83, R90; log 9). -/
def Instr.wf : Instr → Bool
  | .nop => true
  | .ldBcD16 _ => true
  | .ldMemBcA => true
  | .incBc => true
  | .incB => true
  | .decB => true
  | .ldBD8 _ => true
  | .ldAMemBc => true
  | .decBc => true
  | .incC => true
  | .decC => true
  | .ldCD8 _ => true
  | .ldDeD16 _ => true
  | .ldMemDeA => true
  | .incDe => true
  | .incD => true
  | .decD => true
  | .ldDD8 _ => true
  | .rla => true
  | .jr _ => true
  | .ldAMemDe => true
  | .decDe => true
  | .incE => true
  | .decE => true
  | .ldED8 _ => true
  | .jrNz _ => true
  | .ldHlD16 _ => true
  | .ldMemHlIncA => true
  | .incHl => true
  | .incH => true
  | .decH => true
  | .ldHD8 _ => true
  | .jrZ _ => true
  | .ldAMemHlInc => true
  | .decHl => true
  | .incL => true
  | .decL => true
  | .ldLD8 _ => true
  | .jrNc _ => true
  | .ldSpD16 _ => true
  | .ldMemHlDecA => true
  | .incSp => true
  | .jrC _ => true
  | .ldAMemHlDec => true
  | .decSp => true
  | .incA => true
  | .decA => true
  | .ldAD8 _ => true
  | .ldBMemHl => true
  | .ldCMemHl => true
  | .ldDMemHl => true
  | .ldEMemHl => true
  | .ldHMemHl => true
  | .ldLMemHl => true
  | .ldMemHlB => true
  | .ldMemHlC => true
  | .ldMemHlD => true
  | .ldMemHlE => true
  | .ldMemHlH => true
  | .ldMemHlL => true
  | .ldMemHlA => true
  | .ldAMemHl => true
  | .subB => true
  | .subC => true
  | .subD => true
  | .subE => true
  | .subH => true
  | .subL => true
  | .subMemHl => true
  | .subA => true
  | .xorB => true
  | .xorC => true
  | .xorD => true
  | .xorE => true
  | .xorH => true
  | .xorL => true
  | .xorMemHl => true
  | .xorA => true
  | .cpB => true
  | .cpC => true
  | .cpD => true
  | .cpE => true
  | .cpH => true
  | .cpL => true
  | .cpMemHl => true
  | .cpA => true
  | .popBc => true
  | .jpNz _ => true
  | .jp _ => true
  | .pushBc => true
  | .ret => true
  | .jpZ _ => true
  | .cbPrefix b => !hasSecondaryEntry b
  | .call _ => true
  | .popDe => true
  | .jpNc _ => true
  | .pushDe => true
  | .subD8 _ => true
  | .jpC _ => true
  | .ldhMemA _ => true
  | .popHl => true
  | .ldMemCA => true
  | .pushHl => true
  | .xorD8 _ => true
  | .ldhAMem _ => true
  | .popAf => true
  | .ldAMemC => true
  | .pushAf => true
  | .cpD8 _ => true
  | .rlB => true
  | .rlC => true
  | .rlD => true
  | .rlE => true
  | .rlH => true
  | .rlL => true
  | .rlA => true

end Sys2Proof
end

