-- ==== Sys2Proof/Decode.lean ====
section
/-! DEFINITION. Byte and word slices, the two opcode tables, the decoder, the encoder, and the numbering of the opcode table's
words (30_encoding.md). -/

namespace Sys2Proof

/-! ## Slices, extensions and byte order (00_scope.md R7, R8) -/

/-- `cat(h, l) = (h << 8) | l` (R7). -/
def cat (h l : Byte) : Word := h ++ l

/-- `v[7:0]` (R7). -/
def loByte (v : Word) : Byte := v.extractLsb' 0 8

/-- `v[15:8]` (R7). -/
def hiByte (v : Word) : Byte := v.extractLsb' 8 8

/-- `sext_16(v)`: bit 7 copied into bits 15..8 (R8). -/
def sext16 (v : Byte) : Word := v.signExtend 16

/-- `zext_16(v)` (R8). -/
def zext16 (v : Byte) : Word := v.setWidth 16

/-! ## The tables -/

/-- What a byte of the primary table stands for (R82, R85): an operation with no immediate, with a byte immediate, with a word
immediate, or the PREFIX marker of R83. -/
inductive Entry where
  | plain (i : Instr)
  | imm8 (mk : Byte → Instr)
  | imm16 (mk : Word → Instr)
  | escape

/-- Row 0x of the primary table (R82). -/
def row0 : List (Byte × Entry) :=
  [(0x00, .plain .nop),
   (0x01, .imm16 .ldBcD16),
   (0x02, .plain .ldMemBcA),
   (0x03, .plain .incBc),
   (0x04, .plain .incB),
   (0x05, .plain .decB),
   (0x06, .imm8 .ldBD8),
   (0x0A, .plain .ldAMemBc),
   (0x0B, .plain .decBc),
   (0x0C, .plain .incC),
   (0x0D, .plain .decC),
   (0x0E, .imm8 .ldCD8)]

/-- Row 1x of the primary table (R82). -/
def row1 : List (Byte × Entry) :=
  [(0x11, .imm16 .ldDeD16),
   (0x12, .plain .ldMemDeA),
   (0x13, .plain .incDe),
   (0x14, .plain .incD),
   (0x15, .plain .decD),
   (0x16, .imm8 .ldDD8),
   (0x17, .plain .rla),
   (0x18, .imm8 .jr),
   (0x1A, .plain .ldAMemDe),
   (0x1B, .plain .decDe),
   (0x1C, .plain .incE),
   (0x1D, .plain .decE),
   (0x1E, .imm8 .ldED8)]

/-- Row 2x of the primary table (R82). -/
def row2 : List (Byte × Entry) :=
  [(0x20, .imm8 .jrNz),
   (0x21, .imm16 .ldHlD16),
   (0x22, .plain .ldMemHlIncA),
   (0x23, .plain .incHl),
   (0x24, .plain .incH),
   (0x25, .plain .decH),
   (0x26, .imm8 .ldHD8),
   (0x28, .imm8 .jrZ),
   (0x2A, .plain .ldAMemHlInc),
   (0x2B, .plain .decHl),
   (0x2C, .plain .incL),
   (0x2D, .plain .decL),
   (0x2E, .imm8 .ldLD8)]

/-- Row 3x of the primary table (R82). -/
def row3 : List (Byte × Entry) :=
  [(0x30, .imm8 .jrNc),
   (0x31, .imm16 .ldSpD16),
   (0x32, .plain .ldMemHlDecA),
   (0x33, .plain .incSp),
   (0x38, .imm8 .jrC),
   (0x3A, .plain .ldAMemHlDec),
   (0x3B, .plain .decSp),
   (0x3C, .plain .incA),
   (0x3D, .plain .decA),
   (0x3E, .imm8 .ldAD8)]

/-- Row 4x of the primary table (R82). -/
def row4 : List (Byte × Entry) :=
  [(0x46, .plain .ldBMemHl),
   (0x4E, .plain .ldCMemHl)]

/-- Row 5x of the primary table (R82). -/
def row5 : List (Byte × Entry) :=
  [(0x56, .plain .ldDMemHl),
   (0x5E, .plain .ldEMemHl)]

/-- Row 6x of the primary table (R82). -/
def row6 : List (Byte × Entry) :=
  [(0x66, .plain .ldHMemHl),
   (0x6E, .plain .ldLMemHl)]

/-- Row 7x of the primary table (R82). -/
def row7 : List (Byte × Entry) :=
  [(0x70, .plain .ldMemHlB),
   (0x71, .plain .ldMemHlC),
   (0x72, .plain .ldMemHlD),
   (0x73, .plain .ldMemHlE),
   (0x74, .plain .ldMemHlH),
   (0x75, .plain .ldMemHlL),
   (0x77, .plain .ldMemHlA),
   (0x7E, .plain .ldAMemHl)]

/-- Row 9x of the primary table (R82). -/
def row9 : List (Byte × Entry) :=
  [(0x90, .plain .subB),
   (0x91, .plain .subC),
   (0x92, .plain .subD),
   (0x93, .plain .subE),
   (0x94, .plain .subH),
   (0x95, .plain .subL),
   (0x96, .plain .subMemHl),
   (0x97, .plain .subA)]

/-- Row Ax of the primary table (R82). -/
def rowA : List (Byte × Entry) :=
  [(0xA8, .plain .xorB),
   (0xA9, .plain .xorC),
   (0xAA, .plain .xorD),
   (0xAB, .plain .xorE),
   (0xAC, .plain .xorH),
   (0xAD, .plain .xorL),
   (0xAE, .plain .xorMemHl),
   (0xAF, .plain .xorA)]

/-- Row Bx of the primary table (R82). -/
def rowB : List (Byte × Entry) :=
  [(0xB8, .plain .cpB),
   (0xB9, .plain .cpC),
   (0xBA, .plain .cpD),
   (0xBB, .plain .cpE),
   (0xBC, .plain .cpH),
   (0xBD, .plain .cpL),
   (0xBE, .plain .cpMemHl),
   (0xBF, .plain .cpA)]

/-- Row Cx of the primary table (R82). -/
def rowC : List (Byte × Entry) :=
  [(0xC1, .plain .popBc),
   (0xC2, .imm16 .jpNz),
   (0xC3, .imm16 .jp),
   (0xC5, .plain .pushBc),
   (0xC9, .plain .ret),
   (0xCA, .imm16 .jpZ),
   (0xCB, .escape),
   (0xCD, .imm16 .call)]

/-- Row Dx of the primary table (R82). -/
def rowD : List (Byte × Entry) :=
  [(0xD1, .plain .popDe),
   (0xD2, .imm16 .jpNc),
   (0xD5, .plain .pushDe),
   (0xD6, .imm8 .subD8),
   (0xDA, .imm16 .jpC)]

/-- Row Ex of the primary table (R82). -/
def rowE : List (Byte × Entry) :=
  [(0xE0, .imm8 .ldhMemA),
   (0xE1, .plain .popHl),
   (0xE2, .plain .ldMemCA),
   (0xE5, .plain .pushHl),
   (0xEE, .imm8 .xorD8)]

/-- Row Fx of the primary table (R82). -/
def rowF : List (Byte × Entry) :=
  [(0xF0, .imm8 .ldhAMem),
   (0xF1, .plain .popAf),
   (0xF2, .plain .ldAMemC),
   (0xF5, .plain .pushAf),
   (0xFE, .imm8 .cpD8)]

/-- The primary table (R82). Row 8x has no entry. -/
def primaryTable : List (Byte × Entry) :=
  row0 ++ row1 ++ row2 ++ row3 ++ row4 ++ row5 ++ row6 ++ row7 ++ row9 ++ rowA ++ rowB ++ rowC ++ rowD ++ rowE ++ rowF

/-- The secondary table (R84). -/
def secondaryTable : List (Byte × Instr) :=
  [(0x10, .rlB),
   (0x11, .rlC),
   (0x12, .rlD),
   (0x13, .rlE),
   (0x14, .rlH),
   (0x15, .rlL),
   (0x17, .rlA)]

/-- `decode(byte, primary)` (R87): the table's entry, none when the byte is illegal. -/
def primaryEntry (b : Byte) : Option Entry :=
  (primaryTable.find? fun r => r.1 == b).map (·.2)

/-- `decode(byte, secondary)` (R87): the table's entry, none when the byte is illegal. -/
def secondaryEntry (b : Byte) : Option Instr :=
  (secondaryTable.find? fun r => r.1 == b).map (·.2)

/-- The instruction of the prefix and its second byte: the secondary table's entry, and the PREFIX marker itself where there
is none, whose meaning raises IllegalOpcode (R83, R90; log 9). -/
def decodeEscaped (b2 : Byte) : Instr :=
  (secondaryEntry b2).getD (.cbPrefix b2)

/-! ## The decoder -/

/-- Why bytes are no instruction: a primary byte with no entry (R92), or bytes that end inside an instruction. -/
inductive Reject where
  | illegalOpcode (byte : Byte)
  | truncated
deriving DecidableEq, Repr

/-- The instruction at the head of a byte stream and the bytes after it (R80, R85, R86); total, rejecting by name. Words are
little-endian: the byte at the lower address is the low byte. -/
def decode : List Byte → Except Reject (Instr × List Byte)
  | [] => .error .truncated
  | b :: rest =>
    match primaryEntry b with
    | none => .error (.illegalOpcode b)
    | some (.plain i) => .ok (i, rest)
    | some (.imm8 mk) =>
      match rest with
      | d :: rest' => .ok (mk d, rest')
      | [] => .error .truncated
    | some (.imm16 mk) =>
      match rest with
      | lo :: hi :: rest' => .ok (mk (cat hi lo), rest')
      | _ => .error .truncated
    | some .escape =>
      match rest with
      | b2 :: rest' => .ok (decodeEscaped b2, rest')
      | [] => .error .truncated

/-! ## The encoder -/

/-- The bytes of an instruction, the first at the lowest address (R82, R84, R85, R86). -/
def encode : Instr → List Byte
  | .nop => [0x00]
  | .ldBcD16 v => [0x01, loByte v, hiByte v]
  | .ldMemBcA => [0x02]
  | .incBc => [0x03]
  | .incB => [0x04]
  | .decB => [0x05]
  | .ldBD8 d => [0x06, d]
  | .ldAMemBc => [0x0A]
  | .decBc => [0x0B]
  | .incC => [0x0C]
  | .decC => [0x0D]
  | .ldCD8 d => [0x0E, d]
  | .ldDeD16 v => [0x11, loByte v, hiByte v]
  | .ldMemDeA => [0x12]
  | .incDe => [0x13]
  | .incD => [0x14]
  | .decD => [0x15]
  | .ldDD8 d => [0x16, d]
  | .rla => [0x17]
  | .jr o => [0x18, o]
  | .ldAMemDe => [0x1A]
  | .decDe => [0x1B]
  | .incE => [0x1C]
  | .decE => [0x1D]
  | .ldED8 d => [0x1E, d]
  | .jrNz o => [0x20, o]
  | .ldHlD16 v => [0x21, loByte v, hiByte v]
  | .ldMemHlIncA => [0x22]
  | .incHl => [0x23]
  | .incH => [0x24]
  | .decH => [0x25]
  | .ldHD8 d => [0x26, d]
  | .jrZ o => [0x28, o]
  | .ldAMemHlInc => [0x2A]
  | .decHl => [0x2B]
  | .incL => [0x2C]
  | .decL => [0x2D]
  | .ldLD8 d => [0x2E, d]
  | .jrNc o => [0x30, o]
  | .ldSpD16 v => [0x31, loByte v, hiByte v]
  | .ldMemHlDecA => [0x32]
  | .incSp => [0x33]
  | .jrC o => [0x38, o]
  | .ldAMemHlDec => [0x3A]
  | .decSp => [0x3B]
  | .incA => [0x3C]
  | .decA => [0x3D]
  | .ldAD8 d => [0x3E, d]
  | .ldBMemHl => [0x46]
  | .ldCMemHl => [0x4E]
  | .ldDMemHl => [0x56]
  | .ldEMemHl => [0x5E]
  | .ldHMemHl => [0x66]
  | .ldLMemHl => [0x6E]
  | .ldMemHlB => [0x70]
  | .ldMemHlC => [0x71]
  | .ldMemHlD => [0x72]
  | .ldMemHlE => [0x73]
  | .ldMemHlH => [0x74]
  | .ldMemHlL => [0x75]
  | .ldMemHlA => [0x77]
  | .ldAMemHl => [0x7E]
  | .subB => [0x90]
  | .subC => [0x91]
  | .subD => [0x92]
  | .subE => [0x93]
  | .subH => [0x94]
  | .subL => [0x95]
  | .subMemHl => [0x96]
  | .subA => [0x97]
  | .xorB => [0xA8]
  | .xorC => [0xA9]
  | .xorD => [0xAA]
  | .xorE => [0xAB]
  | .xorH => [0xAC]
  | .xorL => [0xAD]
  | .xorMemHl => [0xAE]
  | .xorA => [0xAF]
  | .cpB => [0xB8]
  | .cpC => [0xB9]
  | .cpD => [0xBA]
  | .cpE => [0xBB]
  | .cpH => [0xBC]
  | .cpL => [0xBD]
  | .cpMemHl => [0xBE]
  | .cpA => [0xBF]
  | .popBc => [0xC1]
  | .jpNz t => [0xC2, loByte t, hiByte t]
  | .jp t => [0xC3, loByte t, hiByte t]
  | .pushBc => [0xC5]
  | .ret => [0xC9]
  | .jpZ t => [0xCA, loByte t, hiByte t]
  | .cbPrefix b => [0xCB, b]
  | .call t => [0xCD, loByte t, hiByte t]
  | .popDe => [0xD1]
  | .jpNc t => [0xD2, loByte t, hiByte t]
  | .pushDe => [0xD5]
  | .subD8 d => [0xD6, d]
  | .jpC t => [0xDA, loByte t, hiByte t]
  | .ldhMemA o => [0xE0, o]
  | .popHl => [0xE1]
  | .ldMemCA => [0xE2]
  | .pushHl => [0xE5]
  | .xorD8 d => [0xEE, d]
  | .ldhAMem o => [0xF0, o]
  | .popAf => [0xF1]
  | .ldAMemC => [0xF2]
  | .pushAf => [0xF5]
  | .cpD8 d => [0xFE, d]
  | .rlB => [0xCB, 0x10]
  | .rlC => [0xCB, 0x11]
  | .rlD => [0xCB, 0x12]
  | .rlE => [0xCB, 0x13]
  | .rlH => [0xCB, 0x14]
  | .rlL => [0xCB, 0x15]
  | .rlA => [0xCB, 0x17]

/-- The length of an instruction in bytes (R80, R85, R94). -/
def Instr.length : Instr → Nat
  | .nop => 1
  | .ldBcD16 _ => 3
  | .ldMemBcA => 1
  | .incBc => 1
  | .incB => 1
  | .decB => 1
  | .ldBD8 _ => 2
  | .ldAMemBc => 1
  | .decBc => 1
  | .incC => 1
  | .decC => 1
  | .ldCD8 _ => 2
  | .ldDeD16 _ => 3
  | .ldMemDeA => 1
  | .incDe => 1
  | .incD => 1
  | .decD => 1
  | .ldDD8 _ => 2
  | .rla => 1
  | .jr _ => 2
  | .ldAMemDe => 1
  | .decDe => 1
  | .incE => 1
  | .decE => 1
  | .ldED8 _ => 2
  | .jrNz _ => 2
  | .ldHlD16 _ => 3
  | .ldMemHlIncA => 1
  | .incHl => 1
  | .incH => 1
  | .decH => 1
  | .ldHD8 _ => 2
  | .jrZ _ => 2
  | .ldAMemHlInc => 1
  | .decHl => 1
  | .incL => 1
  | .decL => 1
  | .ldLD8 _ => 2
  | .jrNc _ => 2
  | .ldSpD16 _ => 3
  | .ldMemHlDecA => 1
  | .incSp => 1
  | .jrC _ => 2
  | .ldAMemHlDec => 1
  | .decSp => 1
  | .incA => 1
  | .decA => 1
  | .ldAD8 _ => 2
  | .ldBMemHl => 1
  | .ldCMemHl => 1
  | .ldDMemHl => 1
  | .ldEMemHl => 1
  | .ldHMemHl => 1
  | .ldLMemHl => 1
  | .ldMemHlB => 1
  | .ldMemHlC => 1
  | .ldMemHlD => 1
  | .ldMemHlE => 1
  | .ldMemHlH => 1
  | .ldMemHlL => 1
  | .ldMemHlA => 1
  | .ldAMemHl => 1
  | .subB => 1
  | .subC => 1
  | .subD => 1
  | .subE => 1
  | .subH => 1
  | .subL => 1
  | .subMemHl => 1
  | .subA => 1
  | .xorB => 1
  | .xorC => 1
  | .xorD => 1
  | .xorE => 1
  | .xorH => 1
  | .xorL => 1
  | .xorMemHl => 1
  | .xorA => 1
  | .cpB => 1
  | .cpC => 1
  | .cpD => 1
  | .cpE => 1
  | .cpH => 1
  | .cpL => 1
  | .cpMemHl => 1
  | .cpA => 1
  | .popBc => 1
  | .jpNz _ => 3
  | .jp _ => 3
  | .pushBc => 1
  | .ret => 1
  | .jpZ _ => 3
  | .cbPrefix _ => 2
  | .call _ => 3
  | .popDe => 1
  | .jpNc _ => 3
  | .pushDe => 1
  | .subD8 _ => 2
  | .jpC _ => 3
  | .ldhMemA _ => 2
  | .popHl => 1
  | .ldMemCA => 1
  | .pushHl => 1
  | .xorD8 _ => 2
  | .ldhAMem _ => 2
  | .popAf => 1
  | .ldAMemC => 1
  | .pushAf => 1
  | .cpD8 _ => 2
  | .rlB => 2
  | .rlC => 2
  | .rlD => 2
  | .rlE => 2
  | .rlH => 2
  | .rlL => 2
  | .rlA => 2

/-! ## Words numbered as spec/opcode_table.json numbers them -/

/-- The bytes of an instruction whose first `nbits` bits are `w` and whose other bits are 0, the first at the lowest address.
A word's first byte is its bits 7..0, but for the two-byte rows of the secondary table, which opcode_table.json writes with
the prefix in bits 15..8 (match 0xCB10 for the bytes CB 10); DEDUCED (log 10), safe. -/
def tableBytes (nbits w : Nat) : List Byte :=
  let v := w % 2 ^ nbits
  let b0 : Byte := BitVec.ofNat 8 v
  let b1 : Byte := BitVec.ofNat 8 (v / 256)
  let b2 : Byte := BitVec.ofNat 8 (v / 65536)
  if nbits = 16 ∧ b1 = 0xCB ∧ (secondaryEntry b0).isSome then [b1, b0, 0] else [b0, b1, b2]

/-- What the decoder reads from a word of the opcode table. -/
def decodeTableWord (nbits w : Nat) : Option Instr :=
  match decode (tableBytes nbits w) with
  | .ok (i, _) => some i
  | .error _ => none

end Sys2Proof
end

