-- ==== Sys2Proof/Machine/State.lean ====
section
/-! DEFINITION. The state of the core (10_state.md, 20_memory.md), the faults it raises, and the state after reset. -/

namespace Sys2Proof.Machine

/-! ## Registers -/

/-- The eight byte slots (10_state.md R20), in the order of the register file's array: index 0 = A, 1 = F, 2 = B, 3 = C, 4 = D,
5 = E, 6 = H, 7 = L. -/
inductive Slot where
  | a | f | b | c | d | e | h | l
deriving DecidableEq, Repr

/-- The four register pairs (10_state.md R21). -/
inductive Pair where
  | af | bc | de | hl
deriving DecidableEq, Repr

/-- The four flags (10_state.md R26): Z bit 7, N bit 6, H bit 5, C bit 4 of F. -/
inductive Flag where
  | z | n | h | c
deriving DecidableEq, Repr

/-- The register file (10_state.md R20): the single store of the eight slots. Pairs and flags are views of it. -/
structure Regs where
  a : Byte
  f : Byte
  b : Byte
  c : Byte
  d : Byte
  e : Byte
  h : Byte
  l : Byte
deriving DecidableEq, Repr

/-! ## Faults of the core and the engine status -/

/-- The three fault kinds with their fields (60_exceptions.md R300). -/
inductive FaultKind where
  /-- Raised by decode: a fetched byte has no entry in the relevant opcode table. -/
  | illegalOpcode (byte : Byte) (wasSpecial : Bool)
  /-- Raised by every byte access: the address does not fall into any region. -/
  | unmappedAddress (address : Word)
  /-- Raised by every byte write: the address falls into a read-only region. -/
  | readOnlyViolation (address : Word)
deriving DecidableEq, Repr

/-- The fault record (60_exceptions.md R301): kind and fields, and the address of the faulting instruction's first byte. -/
structure FaultRecord where
  kind : FaultKind
  pcStart : Word
deriving DecidableEq, Repr

/-- The engine status (10_state.md R33). -/
inductive Status where
  | running
  | faulted (record : FaultRecord)
deriving DecidableEq, Repr

/-! ## Memory and the whole state -/

/-- The bytes of every region (20_memory.md R53), keyed by address. Canonical form: addresses strictly rising, no entry equal
to `Memory.unlisted`. -/
abbrev Memory := List Host.Cell

/-- The whole state of the core (10_state.md, introduction and R34), the parameters fixed at construction, and the model's own
two fields `draws` and `ioOut`. -/
structure State where
  /-- The register file (10_state.md R20). -/
  regs : Regs
  /-- The stack pointer (10_state.md R30). -/
  sp : Word
  /-- The program counter (10_state.md R32). -/
  pc : Word
  /-- The engine status (10_state.md R33). -/
  status : Status
  /-- The parameters a step reads, fixed at construction (00_scope.md R6; 20_memory.md R54). -/
  config : Params
  /-- The bytes of the regions (20_memory.md R53, R58). -/
  mem : Memory
  /-- The model's own: how many free values the run has taken (00_scope.md R10; log 7). -/
  draws : Nat
  /-- The model's own: the writes an arbitrary I/O collaborator received, newest first (20_memory.md R59; log 8). -/
  ioOut : List Host.Cell
deriving DecidableEq, Repr

/-- Why a step has no next state. -/
inductive Fault where
  /-- Raised by `step` alone: the status is Faulted, and a faulted engine has no step (10_state.md R33; 60_exceptions.md R305,
  R306). Safe: the spec gives this state no successor. A fault of the core itself is no such stop: it is a next state whose
  status is Faulted (log 1). -/
  | engineStopped (record : FaultRecord)
deriving DecidableEq, Repr

/-- Why the model gives an instruction no meaning. -/
inductive Refusal where
  /-- Raised by an arm of `exec` for an instruction with no meaning yet; no arm raises it now. Safe. -/
  | notModelled (mnemonic : String)
deriving DecidableEq, Repr

/-- What a byte of memory that nothing has written reads as: 0x00. DESIGN CHOICE (log 4), unsafe: the spec leaves it open
(70_reset_and_hazards.md R331); a construction with other bytes lists them. -/
def Memory.unlisted : Byte := 0

/-- The core right after construction (10_state.md R36; 70_reset_and_hazards.md R333) with the default parameters of 00_scope.md
R6: every slot 0, SP = `P_ENTRY_SP` = 0, PC = `P_ENTRY_PC` = 0, status Running, `P_RL_NH` = Draw. The spec gives `P_MAP_MODE`,
`P_IO`, the image and the initial bytes no default: CartridgeMap, plain storage and no byte listed are DESIGN CHOICE (log 2, 4,
5, 6), unsafe. Every other construction is `State.construct`. -/
def State.reset : State where
  regs := { a := 0, f := 0, b := 0, c := 0, d := 0, e := 0, h := 0, l := 0 }
  sp := 0
  pc := 0
  status := .running
  config := { mapMode := .cartridgeMap, io := .storage, rlNH := .draw }
  mem := []
  draws := 0
  ioOut := []

end Sys2Proof.Machine
end

