-- ==== Sys2Proof/Machine/Ops.lean ====
section
/-! DEFINITION. The named operations over registers and memory: the slots and pairs, the address router, byte and word
accesses, push and pop, and taking a fault. -/

namespace Sys2Proof.Machine

/-! ## Sub-steps and partial commit (60_exceptions.md R302) -/

/-- What a sequence of sub-steps answers: a value and the state it leaves, or the fault it raised and the state the earlier
sub-steps left. Nothing is rolled back (60_exceptions.md R302). -/
inductive Result (α : Type) where
  | ok (value : α) (s : State)
  | raise (kind : FaultKind) (s : State)

/-- One sub-step after another; a raise ends the sequence (60_exceptions.md R302, R304). -/
def Result.bind {α β : Type} (r : Result α) (k : α → State → Result β) : Result β :=
  match r with
  | .ok v s => k v s
  | .raise f s => .raise f s

/-! ## Slots and pairs (10_state.md R20 to R26) -/

/-- `x[r]` (00_scope.md R9). Bits 3..0 of F read as 0 at all times (10_state.md R26). -/
def State.slot (s : State) : Slot → Byte
  | .a => s.regs.a
  | .f => s.regs.f &&& 0xF0
  | .b => s.regs.b
  | .c => s.regs.c
  | .d => s.regs.d
  | .e => s.regs.e
  | .h => s.regs.h
  | .l => s.regs.l

/-- `x[r] <- v` (00_scope.md R9). A write of F stores `v & 0xF0` (10_state.md R26). -/
def State.setSlot (s : State) (r : Slot) (v : Byte) : State :=
  match r with
  | .a => { s with regs := { s.regs with a := v } }
  | .f => { s with regs := { s.regs with f := v &&& 0xF0 } }
  | .b => { s with regs := { s.regs with b := v } }
  | .c => { s with regs := { s.regs with c := v } }
  | .d => { s with regs := { s.regs with d := v } }
  | .e => { s with regs := { s.regs with e := v } }
  | .h => { s with regs := { s.regs with h := v } }
  | .l => { s with regs := { s.regs with l := v } }

/-- The high slot of a pair (10_state.md R22). -/
def Pair.hi : Pair → Slot
  | .af => .a
  | .bc => .b
  | .de => .d
  | .hl => .h

/-- The low slot of a pair (10_state.md R22). -/
def Pair.lo : Pair → Slot
  | .af => .f
  | .bc => .c
  | .de => .e
  | .hl => .l

/-- `xx[p]` (10_state.md R22): the high slot is the high byte. -/
def State.pair (s : State) (p : Pair) : Word := cat (s.slot p.hi) (s.slot p.lo)

/-- `xx[p] <- v` (10_state.md R23). -/
def State.setPair (s : State) (p : Pair) (v : Word) : State :=
  (s.setSlot p.hi (hiByte v)).setSlot p.lo (loByte v)

/-- `sp <- v` (10_state.md R30). -/
def State.setSp (s : State) (v : Word) : State := { s with sp := v }

/-- `pc <- target` (10_state.md R32). -/
def State.setPc (s : State) (v : Word) : State := { s with pc := v }

/-- `pc <- pc + n` modulo 2^16 (10_state.md R32). -/
def State.advance (s : State) (n : Word) : State := { s with pc := s.pc + n }

/-! ## The canonical memory list -/

/-- The byte listed at an address, or what an unlisted address reads as. -/
def Memory.get : Memory → Nat → Byte
  | [], _ => Memory.unlisted
  | (k, w) :: m, a => if k = a then w else Memory.get m a

/-- Put an entry before the first entry of a higher address. -/
def Memory.insert (a : Nat) (v : Byte) : Memory → Memory
  | [] => [(a, v)]
  | (k, w) :: m => if a < k then (a, v) :: (k, w) :: m else (k, w) :: Memory.insert a v m

/-- Store a byte at an address, keeping the canonical form: storing what an unlisted address reads as removes the entry. -/
def Memory.set (m : Memory) (a : Nat) (v : Byte) : Memory :=
  let m' := m.filter fun c => c.1 != a
  if v = Memory.unlisted then m' else Memory.insert a v m'

/-- The canonical form: addresses strictly rising, each of the 16-bit bus (20_memory.md R50), no entry equal to what an unlisted
address reads as. -/
def Memory.wf (m : Memory) : Bool :=
  decide (m.Pairwise fun c d => c.1 < d.1) && m.all fun c => c.2 != Memory.unlisted && c.1 < 65536

/-- The byte stored at an address, whatever region it falls into: the model's read of one byte. -/
def State.peek (s : State) (a : Word) : Byte := s.mem.get a.toNat

/-! ## The address router (20_memory.md R50 to R59) -/

/-- The regions' names (20_memory.md R53). -/
inductive RegionName where
  | boot | cartridge | video | work | io | high
deriving DecidableEq, Repr

/-- The kinds of storage behind the router's interface (20_memory.md R51). -/
inductive Storage where
  | readOnlyImage
  | readWriteMemory
  | ioDelegation
deriving DecidableEq, Repr

/-- A region `(base, size, storage, writable)` (20_memory.md R51). -/
structure Region where
  name : RegionName
  base : Nat
  size : Nat
  storage : Storage
  writable : Bool
deriving DecidableEq, Repr

/-- The image region of a map mode (20_memory.md R53, rows 1a and 1b; R54). -/
def imageRegion : MapMode → Region
  | .bootMap =>
    { name := .boot, base := 0x0000, size := 0x00FF, storage := .readOnlyImage, writable := false }
  | .cartridgeMap =>
    { name := .cartridge, base := 0x0000, size := 0x4000, storage := .readOnlyImage, writable := false }

/-- The region table, in the router's order (20_memory.md R53). -/
def regionTable (m : MapMode) : List Region :=
  [imageRegion m,
   { name := .video, base := 0x8000, size := 0x2000, storage := .readWriteMemory, writable := true },
   { name := .work, base := 0xC000, size := 0x2000, storage := .readWriteMemory, writable := true },
   { name := .io, base := 0xFF00, size := 0x004C, storage := .ioDelegation, writable := true },
   { name := .high, base := 0xFF80, size := 0x007F, storage := .readWriteMemory, writable := true }]

/-- A region covers the addresses `base .. base+size-1` (20_memory.md R51). -/
def Region.covers (r : Region) (a : Word) : Bool :=
  r.base ≤ a.toNat && a.toNat < r.base + r.size

/-- `map(address)` (20_memory.md R52): the region whose range contains the address, none when no region does. -/
def route (m : MapMode) (a : Word) : Option Region := (regionTable m).find? (·.covers a)

/-- Some region covers the address (20_memory.md R52, R55). -/
def State.mapped (s : State) (a : Word) : Bool := (route s.config.mapMode a).isSome

/-- A writable region covers the address (20_memory.md R57). -/
def State.writable (s : State) (a : Word) : Bool := (route s.config.mapMode a).any (·.writable)

/-- The address is the I/O block's and an arbitrary collaborator stands behind it (20_memory.md R59). -/
def State.delegated (s : State) (a : Word) : Bool :=
  s.config.io == .arbitrary && (route s.config.mapMode a).any (·.storage == .ioDelegation)

/-! ## Byte and word accesses -/

/-- The byte a read of a mapped address returns: the stored byte (20_memory.md R56, R58), or what the arbitrary collaborator
answers, a free value (R59; log 8). -/
def State.readValue (s : State) (a : Word) : Byte :=
  if s.delegated a then Config.ioGet s.draws a else s.peek a

/-- The state a read of a mapped address leaves: the same (20_memory.md R69), but that a read answered by the arbitrary
collaborator takes a free value (log 8). -/
def State.afterRead (s : State) (a : Word) : State :=
  if s.delegated a then { s with draws := s.draws + 1 } else s

/-- `read_byte(address)` (20_memory.md R56, R60). -/
def readByte (a : Word) (s : State) : Result Byte :=
  if s.mapped a then .ok (s.readValue a) (s.afterRead a) else .raise (.unmappedAddress a) s

/-- The state a write to a writable address leaves: the byte stored (20_memory.md R57, R58), or the event sent to the arbitrary
collaborator (R59; log 8). -/
def State.store (s : State) (a : Word) (v : Byte) : State :=
  if s.delegated a then { s with ioOut := (a.toNat, v) :: s.ioOut }
  else { s with mem := s.mem.set a.toNat v }

/-- `write_byte(address, value)` (20_memory.md R57, R62): the map is checked before writability (60_exceptions.md R304). -/
def writeByte (a : Word) (v : Byte) (s : State) : Result Unit :=
  match route s.config.mapMode a with
  | none => .raise (.unmappedAddress a) s
  | some r => if r.writable then .ok () (s.store a v) else .raise (.readOnlyViolation a) s

/-- `MemRead(addr, 2)` (20_memory.md R61): little-endian, the lower address first. -/
def readWord (a : Word) (s : State) : Result Word :=
  (readByte a s).bind fun lo s1 =>
  (readByte (a + 1) s1).bind fun hi s2 =>
  .ok (cat hi lo) s2

/-- `MemWrite(addr, 2, v)` (20_memory.md R63): two sub-steps, the low byte at the lower address first. -/
def writeWord (a : Word) (v : Word) (s : State) : Result Unit :=
  (writeByte a (loByte v) s).bind fun _ s1 => writeByte (a + 1) (hiByte v) s1

/-! ## Immediates (30_encoding.md R88, R89) -/

/-- `Imm8()` (30_encoding.md R88): PC is not advanced when the read raises. -/
def imm8 (s : State) : Result Byte :=
  (readByte s.pc s).bind fun v s1 => .ok v (s1.advance 1)

/-- `Imm16()` (30_encoding.md R89): PC is not advanced when either read raises. -/
def imm16 (s : State) : Result Word :=
  (readWord s.pc s).bind fun v s1 => .ok v (s1.advance 2)

/-! ## The stack (42_stack.md R160, R161) -/

/-- `Push(v)` (42_stack.md R160): write the word at sp-1, then sp <- sp - 2. -/
def push (v : Word) (s : State) : Result Unit :=
  (writeWord (s.sp - 1) v s).bind fun _ s1 => .ok () (s1.setSp (s1.sp - 2))

/-- `Pop()` (42_stack.md R161): read the word at sp+1, then sp <- sp + 2. -/
def pop (s : State) : Result Word :=
  (readWord (s.sp + 1) s).bind fun v s1 => .ok v (s1.setSp (s1.sp + 2))

/-! ## Taking a fault

There is no trap vector and no handler (60_exceptions.md R305), and no instruction returns from a fault (R306): taking a fault
is the whole mechanism. -/

/-- The numeric cause code of a fault kind (60_exceptions.md R300). -/
def FaultKind.code : FaultKind → Nat
  | .illegalOpcode _ _ => 0
  | .unmappedAddress _ => 1
  | .readOnlyViolation _ => 2

/-- Take a fault (60_exceptions.md R301, R305): the status becomes Faulted with the record, and nothing else changes. -/
def enterFault (k : FaultKind) (start : Word) (s : State) : State :=
  { s with status := .faulted { kind := k, pcStart := start } }

/-- The outcome of an instruction's sub-steps: the state they left, or the fault taken in the state the earlier ones left
(60_exceptions.md R302; log 1). -/
def Result.finish (start : Word) : Result Unit → Host.Outcome State Fault Refusal
  | .ok _ s => .next s
  | .raise k s => .next (enterFault k start s)

/-- One instruction of `len` bytes at PC, its immediates already fetched: PC moves past its bytes, then its sub-steps run; a
fault's record names PC as it was at the start (30_encoding.md R90; 60_exceptions.md R301; log 11). -/
def perform (len : Word) (body : State → Result Unit) (s : State) : Host.Outcome State Fault Refusal :=
  (body (s.advance len)).finish s.pc

end Sys2Proof.Machine
end

