-- ==== Sys2Proof/Machine/Flags.lean ====
section
/-! DEFINITION. Flag access and every flag computation: IncByte, DecByte, Subtract, Xor, ShiftLeft (10_state.md R26, R27;
43_arithmetic.md R171 to R175; 44_rotate.md R230). Each answers the result and the state with the flags written. -/

namespace Sys2Proof.Machine

/-- The flag's bit of F (10_state.md R26). -/
def Flag.bit : Flag → Nat
  | .z => 7
  | .n => 6
  | .h => 5
  | .c => 4

/-- `get_flag(f)` (10_state.md R27): the bit of F as a boolean. -/
def State.flag (s : State) (f : Flag) : Bool := (s.slot .f).getLsbD f.bit

/-- `set_flag(f, on)` (10_state.md R27): sets the bit, preserves the other flag bits, leaves the low nibble zero. -/
def State.setFlag (s : State) (f : Flag) (on : Bool) : State :=
  let bit : Byte := BitVec.twoPow 8 f.bit
  s.setSlot .f (if on then s.slot .f ||| bit else s.slot .f &&& ~~~bit)

/-- `IncByte(old)` (43_arithmetic.md R171). -/
def incByte (old : Byte) (s : State) : Byte × State :=
  let res := old + 1
  let half := (((old &&& 0xF) + 1) &&& 0x10) != 0
  (res, ((s.setFlag .z (res == 0)).setFlag .n false).setFlag .h half)

/-- `DecByte(old)` (43_arithmetic.md R172). -/
def decByte (old : Byte) (s : State) : Byte × State :=
  let res := old - 1
  let half := (old &&& 0xF) == 0
  (res, ((s.setFlag .z (res == 0)).setFlag .n true).setFlag .h half)

/-- `Subtract(a, b)` (43_arithmetic.md R173); the comparisons are unsigned. -/
def subtract (a b : Byte) (s : State) : Byte × State :=
  let res := a - b
  let half := decide ((a &&& 0xF) < (b &&& 0xF))
  let borrow := decide (a < b)
  (res, (((s.setFlag .z (res == 0)).setFlag .n true).setFlag .h half).setFlag .c borrow)

/-- `Xor(a, s)` (43_arithmetic.md R175): N, H and C are unchanged. -/
def exclusiveOr (a b : Byte) (s : State) : Byte × State :=
  let res := a ^^^ b
  (res, s.setFlag .z (res == 0))

/-- `draw()` of a flag (00_scope.md R10): the next free value of the run (log 7). -/
def State.drawFlag (s : State) (f : Flag) : State :=
  { s.setFlag f (Config.freeFlag s.draws) with draws := s.draws + 1 }

/-- The flags N and H after ShiftLeft, by `P_RL_NH` (44_rotate.md R230). -/
def rotateNH (s : State) : State :=
  match s.config.rlNH with
  | .draw => (s.drawFlag .n).drawFlag .h
  | .unchanged => s
  | .cleared => (s.setFlag .n false).setFlag .h false

/-- `ShiftLeft(v, cin)` (44_rotate.md R230): C is the old bit 7, Z follows the result, N and H by `P_RL_NH`. -/
def shiftLeft (v : Byte) (cin : Bool) (s : State) : Byte × State :=
  let res := (v <<< 1) ||| (if cin then 1 else 0)
  (res, rotateNH ((s.setFlag .c (v.getLsbD 7)).setFlag .z (res == 0)))

end Sys2Proof.Machine
end

