-- ==== Sys2Proof/Machine/Operands.lean ====
section
/-! DEFINITION. The operand forms: memory operands of loads and stores, source operands of SUB, XOR and CP, the 16-bit operands
of INC and DEC, and the conditions of jumps. -/

namespace Sys2Proof.Machine

/-! ## Memory operands (40_loads.md R100) -/

/-- The memory operand forms of the loads and stores (40_loads.md): (BC), (DE), (HL), (HL+), (HL-), (a8) and (C). -/
inductive MemOperand where
  | bc | de | hl | hlInc | hlDec
  | ioImm (offset : Byte)
  | ioC
deriving DecidableEq, Repr

/-- The address of a memory operand, computed before any register is written (40_loads.md R100). The I/O-mapped forms address
`0xFF00 + zext_16(offset)`. -/
def MemOperand.address (m : MemOperand) (s : State) : Word :=
  match m with
  | .bc => s.pair .bc
  | .de => s.pair .de
  | .hl | .hlInc | .hlDec => s.pair .hl
  | .ioImm o => 0xFF00 + zext16 o
  | .ioC => 0xFF00 + zext16 (s.slot .c)

/-- The post-increment or post-decrement of HL from the address `t` of the access, a sub-step after it (40_loads.md R100, R114,
R115, R118, R119). -/
def MemOperand.post (m : MemOperand) (t : Word) (s : State) : State :=
  match m with
  | .hlInc => s.setPair .hl (t + 1)
  | .hlDec => s.setPair .hl (t - 1)
  | .bc | .de | .hl | .ioImm _ | .ioC => s

/-- Store a slot at a memory operand (40_loads.md R112 to R115, R127 to R134, R136). -/
def storeSlot (m : MemOperand) (r : Slot) (s : State) : Result Unit :=
  let t := m.address s
  (writeByte t (s.slot r) s).bind fun _ s1 => .ok () (m.post t s1)

/-- Load a slot from a memory operand (40_loads.md R116 to R126, R135, R137). -/
def loadSlot (r : Slot) (m : MemOperand) (s : State) : Result Unit :=
  let t := m.address s
  (readByte t s).bind fun v s1 => .ok () (m.post t (s1.setSlot r v))

/-- Load an immediate byte into a slot (40_loads.md R101 to R107). -/
def loadByte (r : Slot) (d : Byte) (s : State) : Result Unit := .ok () (s.setSlot r d)

/-! ## 16-bit operands -/

/-- The 16-bit operands of LD rr,d16, INC rr and DEC rr (30_encoding.md R81, pair code `rp`): a pair or SP. -/
inductive WordOperand where
  | pair (p : Pair)
  | sp
deriving DecidableEq, Repr

/-- The value of a 16-bit operand. -/
def WordOperand.get (w : WordOperand) (s : State) : Word :=
  match w with
  | .pair p => s.pair p
  | .sp => s.sp

/-- Write a 16-bit operand. -/
def WordOperand.set (w : WordOperand) (v : Word) (s : State) : State :=
  match w with
  | .pair p => s.setPair p v
  | .sp => s.setSp v

/-- Load an immediate word (40_loads.md R108 to R111). -/
def loadWord (w : WordOperand) (v : Word) (s : State) : Result Unit := .ok () (w.set v s)

/-- 16-bit increment (43_arithmetic.md R176). -/
def incWord (w : WordOperand) (s : State) : Result Unit := .ok () (w.set (w.get s + 1) s)

/-- 16-bit decrement (43_arithmetic.md R176). -/
def decWord (w : WordOperand) (s : State) : Result Unit := .ok () (w.set (w.get s - 1) s)

/-! ## 8-bit arithmetic -/

/-- The source operands of SUB, XOR and CP (43_arithmetic.md R174). -/
inductive Source where
  | slot (r : Slot)
  | memHl
  | imm (d : Byte)
deriving DecidableEq, Repr

/-- Read a source operand, before A or F is written (43_arithmetic.md R174). -/
def Source.read (x : Source) (s : State) : Result Byte :=
  match x with
  | .slot r => .ok (s.slot r) s
  | .memHl => readByte (s.pair .hl) s
  | .imm d => .ok d s

/-- `x[r] <- IncByte(x[r])` (43_arithmetic.md R171). -/
def incSlot (r : Slot) (s : State) : Result Unit :=
  let out := incByte (s.slot r) s
  .ok () (out.2.setSlot r out.1)

/-- `x[r] <- DecByte(x[r])` (43_arithmetic.md R172). -/
def decSlot (r : Slot) (s : State) : Result Unit :=
  let out := decByte (s.slot r) s
  .ok () (out.2.setSlot r out.1)

/-- `x[A] <- Subtract(x[A], s)` (43_arithmetic.md R173). -/
def subFromA (x : Source) (s : State) : Result Unit :=
  (x.read s).bind fun v s1 =>
  let out := subtract (s1.slot .a) v s1
  .ok () (out.2.setSlot .a out.1)

/-- `x[A] <- Xor(x[A], s)` (43_arithmetic.md R175). -/
def xorIntoA (x : Source) (s : State) : Result Unit :=
  (x.read s).bind fun v s1 =>
  let out := exclusiveOr (s1.slot .a) v s1
  .ok () (out.2.setSlot .a out.1)

/-- `Subtract(x[A], s)` with the result discarded (43_arithmetic.md R173). -/
def compareA (x : Source) (s : State) : Result Unit :=
  (x.read s).bind fun v s1 => .ok () (subtract (s1.slot .a) v s1).2

/-- `x[r] <- ShiftLeft(x[r], F.C)` (44_rotate.md R231 to R238). -/
def rotateSlot (r : Slot) (s : State) : Result Unit :=
  let out := shiftLeft (s.slot r) (s.flag .c) s
  .ok () (out.2.setSlot r out.1)

/-! ## Jumps, calls, returns and the stack -/

/-- The conditions of the conditional jumps (41_jumps_calls.md R140). -/
inductive Cond where
  | always | nz | z | nc | c
deriving DecidableEq, Repr

/-- `Cond(cc)` (41_jumps_calls.md R140). -/
def Cond.holds (k : Cond) (s : State) : Bool :=
  match k with
  | .always => true
  | .nz => !s.flag .z
  | .z => s.flag .z
  | .nc => !s.flag .c
  | .c => s.flag .c

/-- `if Cond(cc) then pc <- pc + sext_16(o)` (41_jumps_calls.md R141 to R145). -/
def jumpRelative (k : Cond) (o : Byte) (s : State) : Result Unit :=
  .ok () (if k.holds s then s.advance (sext16 o) else s)

/-- `if Cond(cc) then pc <- t` (41_jumps_calls.md R146 to R150). -/
def jumpAbsolute (k : Cond) (t : Word) (s : State) : Result Unit :=
  .ok () (if k.holds s then s.setPc t else s)

/-- `Push(pc); pc <- t` (41_jumps_calls.md R151). -/
def callTo (t : Word) (s : State) : Result Unit :=
  (push s.pc s).bind fun _ s1 => .ok () (s1.setPc t)

/-- `v <- Pop(); pc <- v` (41_jumps_calls.md R152). -/
def returnToCaller (s : State) : Result Unit :=
  (pop s).bind fun v s1 => .ok () (s1.setPc v)

/-- `Push(xx[p])` (42_stack.md R163 to R166). -/
def pushPair (p : Pair) (s : State) : Result Unit := push (s.pair p) s

/-- `v <- Pop(); xx[p] <- v` (42_stack.md R167 to R170); for AF the low nibble of F stays 0 (10_state.md R26). -/
def popPair (p : Pair) (s : State) : Result Unit :=
  (pop s).bind fun v s1 => .ok () (s1.setPair p v)

/-! ## The PREFIX marker -/

/-- The register of a secondary opcode RL r (30_encoding.md R81, R84), none for a byte with no entry. -/
def rotateRegister (b : Byte) : Option Slot :=
  match secondaryEntry b with
  | some .rlB => some .b
  | some .rlC => some .c
  | some .rlD => some .d
  | some .rlE => some .e
  | some .rlH => some .h
  | some .rlL => some .l
  | some .rlA => some .a
  | _ => none

/-- What the PREFIX marker does with the byte of its second fetch (30_encoding.md R83, R90): decode it against the secondary
table and execute the entry, RL r, or raise IllegalOpcode with was_special. -/
def escapeTo (b : Byte) (s : State) : Result Unit :=
  match rotateRegister b with
  | some r => rotateSlot r s
  | none => .raise (.illegalOpcode b true) s

end Sys2Proof.Machine
end

