-- ==== Sys2Proof/Machine/Arithmetic.lean ====
section
/-! DEFINITION. 8-bit INC, DEC, SUB, XOR, CP and 16-bit INC, DEC (43_arithmetic.md R177 to R225). Each meaning starts at the
instruction's address, its immediates already fetched. -/

namespace Sys2Proof.Machine

/-- R191: `INC BC`. -/
def execIncBc (s : State) : Host.Outcome State Fault Refusal :=
  perform 1 (incWord (.pair .bc)) s

/-- R177: `INC B`. -/
def execIncB (s : State) : Host.Outcome State Fault Refusal :=
  perform 1 (incSlot .b) s

/-- R184: `DEC B`. -/
def execDecB (s : State) : Host.Outcome State Fault Refusal :=
  perform 1 (decSlot .b) s

/-- R192: `DEC BC`. -/
def execDecBc (s : State) : Host.Outcome State Fault Refusal :=
  perform 1 (decWord (.pair .bc)) s

/-- R178: `INC C`. -/
def execIncC (s : State) : Host.Outcome State Fault Refusal :=
  perform 1 (incSlot .c) s

/-- R185: `DEC C`. -/
def execDecC (s : State) : Host.Outcome State Fault Refusal :=
  perform 1 (decSlot .c) s

/-- R193: `INC DE`. -/
def execIncDe (s : State) : Host.Outcome State Fault Refusal :=
  perform 1 (incWord (.pair .de)) s

/-- R179: `INC D`. -/
def execIncD (s : State) : Host.Outcome State Fault Refusal :=
  perform 1 (incSlot .d) s

/-- R186: `DEC D`. -/
def execDecD (s : State) : Host.Outcome State Fault Refusal :=
  perform 1 (decSlot .d) s

/-- R194: `DEC DE`. -/
def execDecDe (s : State) : Host.Outcome State Fault Refusal :=
  perform 1 (decWord (.pair .de)) s

/-- R180: `INC E`. -/
def execIncE (s : State) : Host.Outcome State Fault Refusal :=
  perform 1 (incSlot .e) s

/-- R187: `DEC E`. -/
def execDecE (s : State) : Host.Outcome State Fault Refusal :=
  perform 1 (decSlot .e) s

/-- R195: `INC HL`. -/
def execIncHl (s : State) : Host.Outcome State Fault Refusal :=
  perform 1 (incWord (.pair .hl)) s

/-- R181: `INC H`. -/
def execIncH (s : State) : Host.Outcome State Fault Refusal :=
  perform 1 (incSlot .h) s

/-- R188: `DEC H`. -/
def execDecH (s : State) : Host.Outcome State Fault Refusal :=
  perform 1 (decSlot .h) s

/-- R196: `DEC HL`. -/
def execDecHl (s : State) : Host.Outcome State Fault Refusal :=
  perform 1 (decWord (.pair .hl)) s

/-- R182: `INC L`. -/
def execIncL (s : State) : Host.Outcome State Fault Refusal :=
  perform 1 (incSlot .l) s

/-- R189: `DEC L`. -/
def execDecL (s : State) : Host.Outcome State Fault Refusal :=
  perform 1 (decSlot .l) s

/-- R197: `INC SP`. -/
def execIncSp (s : State) : Host.Outcome State Fault Refusal :=
  perform 1 (incWord .sp) s

/-- R198: `DEC SP`. -/
def execDecSp (s : State) : Host.Outcome State Fault Refusal :=
  perform 1 (decWord .sp) s

/-- R183: `INC A`. -/
def execIncA (s : State) : Host.Outcome State Fault Refusal :=
  perform 1 (incSlot .a) s

/-- R190: `DEC A`. -/
def execDecA (s : State) : Host.Outcome State Fault Refusal :=
  perform 1 (decSlot .a) s

/-- R199: `SUB B`. -/
def execSubB (s : State) : Host.Outcome State Fault Refusal :=
  perform 1 (subFromA (.slot .b)) s

/-- R200: `SUB C`. -/
def execSubC (s : State) : Host.Outcome State Fault Refusal :=
  perform 1 (subFromA (.slot .c)) s

/-- R201: `SUB D`. -/
def execSubD (s : State) : Host.Outcome State Fault Refusal :=
  perform 1 (subFromA (.slot .d)) s

/-- R202: `SUB E`. -/
def execSubE (s : State) : Host.Outcome State Fault Refusal :=
  perform 1 (subFromA (.slot .e)) s

/-- R203: `SUB H`. -/
def execSubH (s : State) : Host.Outcome State Fault Refusal :=
  perform 1 (subFromA (.slot .h)) s

/-- R204: `SUB L`. -/
def execSubL (s : State) : Host.Outcome State Fault Refusal :=
  perform 1 (subFromA (.slot .l)) s

/-- R205: `SUB (HL)`. -/
def execSubMemHl (s : State) : Host.Outcome State Fault Refusal :=
  perform 1 (subFromA .memHl) s

/-- R206: `SUB A`. -/
def execSubA (s : State) : Host.Outcome State Fault Refusal :=
  perform 1 (subFromA (.slot .a)) s

/-- R208: `XOR B`. -/
def execXorB (s : State) : Host.Outcome State Fault Refusal :=
  perform 1 (xorIntoA (.slot .b)) s

/-- R209: `XOR C`. -/
def execXorC (s : State) : Host.Outcome State Fault Refusal :=
  perform 1 (xorIntoA (.slot .c)) s

/-- R210: `XOR D`. -/
def execXorD (s : State) : Host.Outcome State Fault Refusal :=
  perform 1 (xorIntoA (.slot .d)) s

/-- R211: `XOR E`. -/
def execXorE (s : State) : Host.Outcome State Fault Refusal :=
  perform 1 (xorIntoA (.slot .e)) s

/-- R212: `XOR H`. -/
def execXorH (s : State) : Host.Outcome State Fault Refusal :=
  perform 1 (xorIntoA (.slot .h)) s

/-- R213: `XOR L`. -/
def execXorL (s : State) : Host.Outcome State Fault Refusal :=
  perform 1 (xorIntoA (.slot .l)) s

/-- R214: `XOR (HL)`. -/
def execXorMemHl (s : State) : Host.Outcome State Fault Refusal :=
  perform 1 (xorIntoA .memHl) s

/-- R215: `XOR A`. -/
def execXorA (s : State) : Host.Outcome State Fault Refusal :=
  perform 1 (xorIntoA (.slot .a)) s

/-- R217: `CP B`. -/
def execCpB (s : State) : Host.Outcome State Fault Refusal :=
  perform 1 (compareA (.slot .b)) s

/-- R218: `CP C`. -/
def execCpC (s : State) : Host.Outcome State Fault Refusal :=
  perform 1 (compareA (.slot .c)) s

/-- R219: `CP D`. -/
def execCpD (s : State) : Host.Outcome State Fault Refusal :=
  perform 1 (compareA (.slot .d)) s

/-- R220: `CP E`. -/
def execCpE (s : State) : Host.Outcome State Fault Refusal :=
  perform 1 (compareA (.slot .e)) s

/-- R221: `CP H`. -/
def execCpH (s : State) : Host.Outcome State Fault Refusal :=
  perform 1 (compareA (.slot .h)) s

/-- R222: `CP L`. -/
def execCpL (s : State) : Host.Outcome State Fault Refusal :=
  perform 1 (compareA (.slot .l)) s

/-- R223: `CP (HL)`. -/
def execCpMemHl (s : State) : Host.Outcome State Fault Refusal :=
  perform 1 (compareA .memHl) s

/-- R224: `CP A`. -/
def execCpA (s : State) : Host.Outcome State Fault Refusal :=
  perform 1 (compareA (.slot .a)) s

/-- R207: `SUB d8`. -/
def execSubD8 (d : Byte) (s : State) : Host.Outcome State Fault Refusal :=
  perform 2 (subFromA (.imm d)) s

/-- R216: `XOR d8`. -/
def execXorD8 (d : Byte) (s : State) : Host.Outcome State Fault Refusal :=
  perform 2 (xorIntoA (.imm d)) s

/-- R225: `CP d8`. -/
def execCpD8 (d : Byte) (s : State) : Host.Outcome State Fault Refusal :=
  perform 2 (compareA (.imm d)) s

end Sys2Proof.Machine
end

