-- ==== Sys2Proof/Machine/Jumps.lean ====
section
/-! DEFINITION. Jumps, calls and returns (41_jumps_calls.md R141 to R152). Each meaning starts at the
instruction's address, its immediates already fetched. -/

namespace Sys2Proof.Machine

/-- R141: `JR r8`. -/
def execJr (o : Byte) (s : State) : Host.Outcome State Fault Refusal :=
  perform 2 (jumpRelative .always o) s

/-- R142: `JR NZ,r8`. -/
def execJrNz (o : Byte) (s : State) : Host.Outcome State Fault Refusal :=
  perform 2 (jumpRelative .nz o) s

/-- R143: `JR Z,r8`. -/
def execJrZ (o : Byte) (s : State) : Host.Outcome State Fault Refusal :=
  perform 2 (jumpRelative .z o) s

/-- R144: `JR NC,r8`. -/
def execJrNc (o : Byte) (s : State) : Host.Outcome State Fault Refusal :=
  perform 2 (jumpRelative .nc o) s

/-- R145: `JR C,r8`. -/
def execJrC (o : Byte) (s : State) : Host.Outcome State Fault Refusal :=
  perform 2 (jumpRelative .c o) s

/-- R147: `JP NZ,a16`. -/
def execJpNz (t : Word) (s : State) : Host.Outcome State Fault Refusal :=
  perform 3 (jumpAbsolute .nz t) s

/-- R146: `JP a16`. -/
def execJp (t : Word) (s : State) : Host.Outcome State Fault Refusal :=
  perform 3 (jumpAbsolute .always t) s

/-- R152: `RET`. -/
def execRet (s : State) : Host.Outcome State Fault Refusal :=
  perform 1 (returnToCaller) s

/-- R148: `JP Z,a16`. -/
def execJpZ (t : Word) (s : State) : Host.Outcome State Fault Refusal :=
  perform 3 (jumpAbsolute .z t) s

/-- R151: `CALL a16`. -/
def execCall (t : Word) (s : State) : Host.Outcome State Fault Refusal :=
  perform 3 (callTo t) s

/-- R149: `JP NC,a16`. -/
def execJpNc (t : Word) (s : State) : Host.Outcome State Fault Refusal :=
  perform 3 (jumpAbsolute .nc t) s

/-- R150: `JP C,a16`. -/
def execJpC (t : Word) (s : State) : Host.Outcome State Fault Refusal :=
  perform 3 (jumpAbsolute .c t) s

end Sys2Proof.Machine
end

