-- ==== Sys2Proof/Machine/Loads.lean ====
section
/-! DEFINITION. The loads and stores (40_loads.md R101 to R137). None of them writes a flag. Each meaning starts at the
instruction's address, its immediates already fetched. -/

namespace Sys2Proof.Machine

/-- R108: `LD BC,d16`. -/
def execLdBcD16 (v : Word) (s : State) : Host.Outcome State Fault Refusal :=
  perform 3 (loadWord (.pair .bc) v) s

/-- R112: `LD (BC),A`. -/
def execLdMemBcA (s : State) : Host.Outcome State Fault Refusal :=
  perform 1 (storeSlot .bc .a) s

/-- R101: `LD B,d8`. -/
def execLdBD8 (d : Byte) (s : State) : Host.Outcome State Fault Refusal :=
  perform 2 (loadByte .b d) s

/-- R116: `LD A,(BC)`. -/
def execLdAMemBc (s : State) : Host.Outcome State Fault Refusal :=
  perform 1 (loadSlot .a .bc) s

/-- R102: `LD C,d8`. -/
def execLdCD8 (d : Byte) (s : State) : Host.Outcome State Fault Refusal :=
  perform 2 (loadByte .c d) s

/-- R109: `LD DE,d16`. -/
def execLdDeD16 (v : Word) (s : State) : Host.Outcome State Fault Refusal :=
  perform 3 (loadWord (.pair .de) v) s

/-- R113: `LD (DE),A`. -/
def execLdMemDeA (s : State) : Host.Outcome State Fault Refusal :=
  perform 1 (storeSlot .de .a) s

/-- R103: `LD D,d8`. -/
def execLdDD8 (d : Byte) (s : State) : Host.Outcome State Fault Refusal :=
  perform 2 (loadByte .d d) s

/-- R117: `LD A,(DE)`. -/
def execLdAMemDe (s : State) : Host.Outcome State Fault Refusal :=
  perform 1 (loadSlot .a .de) s

/-- R104: `LD E,d8`. -/
def execLdED8 (d : Byte) (s : State) : Host.Outcome State Fault Refusal :=
  perform 2 (loadByte .e d) s

/-- R110: `LD HL,d16`. -/
def execLdHlD16 (v : Word) (s : State) : Host.Outcome State Fault Refusal :=
  perform 3 (loadWord (.pair .hl) v) s

/-- R114: `LD (HL+),A`. -/
def execLdMemHlIncA (s : State) : Host.Outcome State Fault Refusal :=
  perform 1 (storeSlot .hlInc .a) s

/-- R105: `LD H,d8`. -/
def execLdHD8 (d : Byte) (s : State) : Host.Outcome State Fault Refusal :=
  perform 2 (loadByte .h d) s

/-- R118: `LD A,(HL+)`. -/
def execLdAMemHlInc (s : State) : Host.Outcome State Fault Refusal :=
  perform 1 (loadSlot .a .hlInc) s

/-- R106: `LD L,d8`. -/
def execLdLD8 (d : Byte) (s : State) : Host.Outcome State Fault Refusal :=
  perform 2 (loadByte .l d) s

/-- R111: `LD SP,d16`. -/
def execLdSpD16 (v : Word) (s : State) : Host.Outcome State Fault Refusal :=
  perform 3 (loadWord .sp v) s

/-- R115: `LD (HL-),A`. -/
def execLdMemHlDecA (s : State) : Host.Outcome State Fault Refusal :=
  perform 1 (storeSlot .hlDec .a) s

/-- R119: `LD A,(HL-)`. -/
def execLdAMemHlDec (s : State) : Host.Outcome State Fault Refusal :=
  perform 1 (loadSlot .a .hlDec) s

/-- R107: `LD A,d8`. -/
def execLdAD8 (d : Byte) (s : State) : Host.Outcome State Fault Refusal :=
  perform 2 (loadByte .a d) s

/-- R120: `LD B,(HL)`. -/
def execLdBMemHl (s : State) : Host.Outcome State Fault Refusal :=
  perform 1 (loadSlot .b .hl) s

/-- R121: `LD C,(HL)`. -/
def execLdCMemHl (s : State) : Host.Outcome State Fault Refusal :=
  perform 1 (loadSlot .c .hl) s

/-- R122: `LD D,(HL)`. -/
def execLdDMemHl (s : State) : Host.Outcome State Fault Refusal :=
  perform 1 (loadSlot .d .hl) s

/-- R123: `LD E,(HL)`. -/
def execLdEMemHl (s : State) : Host.Outcome State Fault Refusal :=
  perform 1 (loadSlot .e .hl) s

/-- R124: `LD H,(HL)`. -/
def execLdHMemHl (s : State) : Host.Outcome State Fault Refusal :=
  perform 1 (loadSlot .h .hl) s

/-- R125: `LD L,(HL)`. -/
def execLdLMemHl (s : State) : Host.Outcome State Fault Refusal :=
  perform 1 (loadSlot .l .hl) s

/-- R127: `LD (HL),B`. -/
def execLdMemHlB (s : State) : Host.Outcome State Fault Refusal :=
  perform 1 (storeSlot .hl .b) s

/-- R128: `LD (HL),C`. -/
def execLdMemHlC (s : State) : Host.Outcome State Fault Refusal :=
  perform 1 (storeSlot .hl .c) s

/-- R129: `LD (HL),D`. -/
def execLdMemHlD (s : State) : Host.Outcome State Fault Refusal :=
  perform 1 (storeSlot .hl .d) s

/-- R130: `LD (HL),E`. -/
def execLdMemHlE (s : State) : Host.Outcome State Fault Refusal :=
  perform 1 (storeSlot .hl .e) s

/-- R131: `LD (HL),H`. -/
def execLdMemHlH (s : State) : Host.Outcome State Fault Refusal :=
  perform 1 (storeSlot .hl .h) s

/-- R132: `LD (HL),L`. -/
def execLdMemHlL (s : State) : Host.Outcome State Fault Refusal :=
  perform 1 (storeSlot .hl .l) s

/-- R133: `LD (HL),A`. -/
def execLdMemHlA (s : State) : Host.Outcome State Fault Refusal :=
  perform 1 (storeSlot .hl .a) s

/-- R126: `LD A,(HL)`. -/
def execLdAMemHl (s : State) : Host.Outcome State Fault Refusal :=
  perform 1 (loadSlot .a .hl) s

/-- R134: `LDH (a8),A`. -/
def execLdhMemA (o : Byte) (s : State) : Host.Outcome State Fault Refusal :=
  perform 2 (storeSlot (.ioImm o) .a) s

/-- R136: `LD (C),A`. -/
def execLdMemCA (s : State) : Host.Outcome State Fault Refusal :=
  perform 1 (storeSlot .ioC .a) s

/-- R135: `LDH A,(a8)`. -/
def execLdhAMem (o : Byte) (s : State) : Host.Outcome State Fault Refusal :=
  perform 2 (loadSlot .a (.ioImm o)) s

/-- R137: `LD A,(C)`. -/
def execLdAMemC (s : State) : Host.Outcome State Fault Refusal :=
  perform 1 (loadSlot .a .ioC) s

end Sys2Proof.Machine
end

