-- ==== Sys2Proof/Machine/Nop.lean ====
section
/-! DEFINITION. NOP (45_nop.md R240). Each meaning starts at the
instruction's address, its immediates already fetched. -/

namespace Sys2Proof.Machine

/-- R240: `NOP`. -/
def execNop (s : State) : Host.Outcome State Fault Refusal :=
  perform 1 (fun s1 => .ok () s1) s

end Sys2Proof.Machine
end

