-- ==== Sys2Proof/Machine/Rotate.lean ====
section
/-! DEFINITION. RLA, RL r (44_rotate.md R231 to R238) and the PREFIX marker (30_encoding.md R83, R90). Each meaning starts at the
instruction's address, its immediates already fetched. -/

namespace Sys2Proof.Machine

/-- R231: `RLA`. -/
def execRla (s : State) : Host.Outcome State Fault Refusal :=
  perform 1 (rotateSlot .a) s

/-- R83, R90: PREFIX and the byte of its second fetch. -/
def execCbPrefix (b : Byte) (s : State) : Host.Outcome State Fault Refusal :=
  perform 2 (escapeTo b) s

/-- R232: `RL B`. -/
def execRlB (s : State) : Host.Outcome State Fault Refusal :=
  perform 2 (rotateSlot .b) s

/-- R233: `RL C`. -/
def execRlC (s : State) : Host.Outcome State Fault Refusal :=
  perform 2 (rotateSlot .c) s

/-- R234: `RL D`. -/
def execRlD (s : State) : Host.Outcome State Fault Refusal :=
  perform 2 (rotateSlot .d) s

/-- R235: `RL E`. -/
def execRlE (s : State) : Host.Outcome State Fault Refusal :=
  perform 2 (rotateSlot .e) s

/-- R236: `RL H`. -/
def execRlH (s : State) : Host.Outcome State Fault Refusal :=
  perform 2 (rotateSlot .h) s

/-- R237: `RL L`. -/
def execRlL (s : State) : Host.Outcome State Fault Refusal :=
  perform 2 (rotateSlot .l) s

/-- R238: `RL A`. -/
def execRlA (s : State) : Host.Outcome State Fault Refusal :=
  perform 2 (rotateSlot .a) s

end Sys2Proof.Machine
end

