-- ==== Sys2Proof/Machine/Stack.lean ====
section
/-! DEFINITION. PUSH and POP (42_stack.md R163 to R170). Each meaning starts at the
instruction's address, its immediates already fetched. -/

namespace Sys2Proof.Machine

/-- R167: `POP BC`. -/
def execPopBc (s : State) : Host.Outcome State Fault Refusal :=
  perform 1 (popPair .bc) s

/-- R163: `PUSH BC`. -/
def execPushBc (s : State) : Host.Outcome State Fault Refusal :=
  perform 1 (pushPair .bc) s

/-- R168: `POP DE`. -/
def execPopDe (s : State) : Host.Outcome State Fault Refusal :=
  perform 1 (popPair .de) s

/-- R164: `PUSH DE`. -/
def execPushDe (s : State) : Host.Outcome State Fault Refusal :=
  perform 1 (pushPair .de) s

/-- R169: `POP HL`. -/
def execPopHl (s : State) : Host.Outcome State Fault Refusal :=
  perform 1 (popPair .hl) s

/-- R165: `PUSH HL`. -/
def execPushHl (s : State) : Host.Outcome State Fault Refusal :=
  perform 1 (pushPair .hl) s

/-- R170: `POP AF`. -/
def execPopAf (s : State) : Host.Outcome State Fault Refusal :=
  perform 1 (popPair .af) s

/-- R166: `PUSH AF`. -/
def execPushAf (s : State) : Host.Outcome State Fault Refusal :=
  perform 1 (pushPair .af) s

end Sys2Proof.Machine
end

