-- ==== Sys2Proof/Machine/Fetch.lean ====
section
/-! DEFINITION. Fetching an instruction (30_encoding.md R88 to R90): the bytes at PC in order, each routed on its own, PC moving
past each byte that was read. -/

namespace Sys2Proof.Machine

/-- The sub-steps of a step up to `execute` (30_encoding.md R90), with the immediates of the operation (R88, R89), which every
rule reads before anything else (20_memory.md R73). A raise leaves PC where R88 to R90 leave it; otherwise PC is past the
instruction's bytes. -/
def fetch (s : State) : Result Instr :=
  (readByte s.pc s).bind fun b s1 =>
  let s2 := s1.advance 1
  match primaryEntry b with
  | none => .raise (.illegalOpcode b false) s2
  | some (.plain i) => .ok i s2
  | some (.imm8 mk) => (imm8 s2).bind fun d s3 => .ok (mk d) s3
  | some (.imm16 mk) => (imm16 s2).bind fun v s3 => .ok (mk v) s3
  | some .escape => (imm8 s2).bind fun b2 s3 => .ok (decodeEscaped b2) s3

/-- The instruction's bytes of a word of the opcode table, placed at an address and the addresses after it. Bytes of an image
stand for the image a construction supplies (70_reset_and_hazards.md R332; log 6). -/
def placeBytes (a : Word) : List Byte → Memory → Memory
  | [], m => m
  | b :: bs, m => placeBytes (a + 1) bs (m.set a.toNat b)

end Sys2Proof.Machine
end

