-- ==== Sys2Proof/Machine/Step.lean ====
section
/-! DEFINITION. One step of the Execution Engine (30_encoding.md R90). -/

namespace Sys2Proof.Machine

/-- `step()` (30_encoding.md R90): defined only when the status is Running (10_state.md R33); fetch and decode, then execute. A
meaning starts with PC at the instruction's address and moves it past the instruction's bytes itself, so PC is put back there
(log 11). -/
def step (s : State) : Host.Outcome State Fault Refusal :=
  match s.status with
  | .faulted r => .fault (.engineStopped r)
  | .running =>
    match fetch s with
    | .raise k s1 => .next (enterFault k s.pc s1)
    | .ok i s1 => exec i (s1.setPc s.pc)

/-- The state with an instruction of the opcode table placed where the step fetches next. -/
def State.withFetchWord (s : State) (nbits w : Nat) : State :=
  { s with mem := placeBytes s.pc (tableBytes nbits w) s.mem }

end Sys2Proof.Machine
end

