-- ==== Sys2Proof/Machine/Construct.lean ====
section
/-! DEFINITION. Construction of a core from its parameters (00_scope.md R6; 70_reset_and_hazards.md R330 to R333, R346). -/

namespace Sys2Proof.Machine

/-- The parameters of a construction (00_scope.md R6): `P_MAP_MODE`, `P_IO` and `P_RL_NH` in `config`; the image that
`P_MAP_MODE` selects; `P_ENTRY_PC` and `P_ENTRY_SP`; `P_INIT_RAM`, a byte for each address; `P_INIT_IO`, a byte for each offset. -/
structure Construction where
  config : Params
  image : List Byte
  entryPc : Word
  entrySp : Word
  initRam : Word → Byte
  initIo : Nat → Byte

/-- The byte an address holds after construction (10_state.md R36): the image's, `P_INIT_RAM`'s or `P_INIT_IO`'s, by the region
that covers it; an unmapped address holds none. -/
def Construction.initialByte (p : Construction) (a : Nat) : Byte :=
  match route p.config.mapMode (BitVec.ofNat 16 a) with
  | none => Memory.unlisted
  | some r =>
    match r.storage with
    | .readOnlyImage => p.image.getD (a - r.base) Memory.unlisted
    | .readWriteMemory => p.initRam (BitVec.ofNat 16 a)
    | .ioDelegation => p.initIo (a - r.base)

/-- The cell of an address in the canonical list, none when it holds what an unlisted address reads as. -/
def Construction.cell (p : Construction) (a : Nat) : Option Host.Cell :=
  if p.initialByte a = Memory.unlisted then none else some (a, p.initialByte a)

/-- The memory after construction, in canonical form. -/
def Construction.memory (p : Construction) : Memory := (List.range 65536).filterMap p.cell

/-- Construct a core (10_state.md R36); an image of another size than its region's is no construction argument, and no core
exists for it (20_memory.md R54; 70_reset_and_hazards.md R332). Reset is construction (R330). -/
def State.construct (p : Construction) : Option State :=
  if p.image.length = (imageRegion p.config.mapMode).size then
    some
      { regs := { a := 0, f := 0, b := 0, c := 0, d := 0, e := 0, h := 0, l := 0 }
        sp := p.entrySp
        pc := p.entryPc
        status := .running
        config := p.config
        mem := p.memory
        draws := 0
        ioOut := [] }
  else none

end Sys2Proof.Machine
end

