-- ==== Sys2Proof/Machine/Trace.lean ====
section
/-! DEFINITION. The optional trace event of a step (30_encoding.md R91; 60_exceptions.md R316): a function of the state, so that
it cannot affect execution (log 12). -/

namespace Sys2Proof.Machine

/-- A trace event (30_encoding.md R91): the instruction's address, and the identity of the decoded operation: its opcode byte and
the table it was decoded against (`special` for the secondary one). -/
structure TraceEvent where
  pc : Word
  byte : Byte
  special : Bool
deriving DecidableEq, Repr

/-- The event the step from this state emits (30_encoding.md R91): after a successful decode, before execute; none when the fetch
or the decode of the opcode raises, and none from a faulted engine. -/
def traceEvent (s : State) : Option TraceEvent :=
  match s.status with
  | .faulted _ => none
  | .running =>
    match readByte s.pc s with
    | .raise _ _ => none
    | .ok b s1 =>
      match primaryEntry b with
      | none => none
      | some .escape =>
        match readByte (s.pc + 1) s1 with
        | .raise _ _ => none
        | .ok b2 _ =>
          if (secondaryEntry b2).isSome then some { pc := s.pc, byte := b2, special := true } else none
      | some (.plain _) => some { pc := s.pc, byte := b, special := false }
      | some (.imm8 _) => some { pc := s.pc, byte := b, special := false }
      | some (.imm16 _) => some { pc := s.pc, byte := b, special := false }

end Sys2Proof.Machine
end

