-- ==== Sys2Proof/Safety.lean ====
section
/-! DEFINITION. The terms statements are made in: the invariant, the fetched bytes, the end of a run, the illegal bytes, and what
each instruction may write. -/

namespace Sys2Proof.Machine

/-! ## The invariant -/

/-- The model's invariant: memory is in canonical form and lists mapped addresses only (20_memory.md R53), the low nibble of the
stored F is zero (10_state.md R26), an event names an address of the I/O block, and plain storage receives none (20_memory.md
R59). -/
abbrev State.Inv (s : State) : Prop :=
  s.mem.wf = true ∧ (∀ c ∈ s.mem, s.mapped (BitVec.ofNat 16 c.1) = true) ∧ s.regs.f &&& 0x0F = 0 ∧
    (∀ c ∈ s.ioOut, 0xFF00 ≤ c.1 ∧ c.1 ≤ 0xFF4B) ∧ (s.config.io = .storage → s.ioOut = [])

/-! ## Fetched bytes -/

/-- The state after the first `n` byte reads of a fetch from PC: each read the arbitrary I/O collaborator answers takes a free
value. With plain storage, or code outside the I/O block, it is the same state. -/
def State.afterFetch (s : State) : Nat → State
  | 0 => s
  | n + 1 => (s.afterFetch n).afterRead (s.pc + BitVec.ofNat 16 n)

/-- The byte number `n` a fetch from PC reads. -/
def State.codeByte (s : State) (n : Nat) : Byte := (s.afterFetch n).readValue (s.pc + BitVec.ofNat 16 n)

/-- The first `n` bytes a fetch from PC reads. -/
def State.codeBytes (s : State) (n : Nat) : List Byte := (List.range n).map s.codeByte

/-- The first `n` addresses from PC are mapped. -/
def State.codeMapped (s : State) (n : Nat) : Prop := ∀ k < n, s.mapped (s.pc + BitVec.ofNat 16 k) = true

/-! ## Faults left behind -/

/-- The state an instruction leaves when the first access after its own bytes raises (60_exceptions.md R303): PC past its `len`
bytes, the record, and nothing else changed. -/
def State.faultedAt (s : State) (len : Word) (k : FaultKind) : State :=
  { s with pc := s.pc + len, status := .faulted { kind := k, pcStart := s.pc } }

/-- The fault of a byte write to an address that is not writable (20_memory.md R57; 60_exceptions.md R304): UnmappedAddress when
no region covers it, ReadOnlyViolation when a read-only region does. -/
def State.writeFault (s : State) (a : Word) : FaultKind :=
  if s.mapped a then .readOnlyViolation a else .unmappedAddress a

/-! ## The end of a run (70_reset_and_hazards.md R345) -/

/-- The normal end of a run: status Running, and the bytes 18 FE at PC. -/
def State.atEnd (s : State) : Prop :=
  s.status = .running ∧ s.codeMapped 2 ∧ s.codeByte 0 = 0x18 ∧ s.codeByte 1 = 0xFE

/-- A run of `k` steps from `s` ends normally in `t`: no step before it faults or is at an end (R345, R307). -/
def EndsAfter (k : Nat) (s t : State) : Prop :=
  Host.Core.run Sys2Proof.core k s = .next t ∧ t.atEnd ∧
    ∀ j < k, ∀ u, Host.Core.run Sys2Proof.core j s = .next u → ¬ u.atEnd

/-! ## The byte lists of 30_encoding.md -/

/-- A byte lies in one of the closed ranges. -/
def inRanges (b : Byte) (rs : List (Byte × Byte)) : Bool := rs.any fun r => r.1 ≤ b && b ≤ r.2

/-- The primary bytes with no entry, as R92 lists them. -/
def illegalPrimary (b : Byte) : Bool :=
  inRanges b
    [(0x07, 0x09), (0x0F, 0x10), (0x19, 0x19), (0x1F, 0x1F), (0x27, 0x27), (0x29, 0x29), (0x2F, 0x2F), (0x34, 0x37),
    (0x39, 0x39), (0x3F, 0x45), (0x47, 0x4D), (0x4F, 0x55), (0x57, 0x5D), (0x5F, 0x65), (0x67, 0x6D), (0x6F, 0x6F),
    (0x76, 0x76), (0x78, 0x7D), (0x7F, 0x8F), (0x98, 0xA7), (0xB0, 0xB7), (0xC0, 0xC0), (0xC4, 0xC4), (0xC6, 0xC8),
    (0xCC, 0xCC), (0xCE, 0xD0), (0xD3, 0xD4), (0xD7, 0xD9), (0xDB, 0xDF), (0xE3, 0xE4), (0xE6, 0xED), (0xEF, 0xEF),
    (0xF3, 0xF4), (0xF6, 0xFD), (0xFF, 0xFF)]

/-- The secondary bytes with no entry, as R92 lists them. -/
def illegalSecondary (b : Byte) : Bool := inRanges b [(0x00, 0x0F), (0x16, 0x16), (0x18, 0xFF)]

/-- The primary opcodes of length 2, as R85 lists them. -/
def lengthTwoOpcodes : List Byte :=
  [0x06, 0x0E, 0x16, 0x18, 0x1E, 0x20, 0x26, 0x28, 0x2E, 0x30, 0x38, 0x3E, 0xD6, 0xE0, 0xEE, 0xF0, 0xFE]

/-- The primary opcodes of length 3, as R85 lists them. -/
def lengthThreeOpcodes : List Byte := [0x01, 0x11, 0x21, 0x31, 0xC2, 0xC3, 0xCA, 0xCD, 0xD2, 0xDA]

/-! ## What each instruction may write -/

/-- The flags an instruction's rule writes (10_state.md R28, column "written by"). The PREFIX marker writes those of the
instruction it escapes to. -/
def flagsWritten : Instr → List Flag
  | .nop => []
  | .ldBcD16 _ => []
  | .ldMemBcA => []
  | .incBc => []
  | .incB => [.z, .n, .h]
  | .decB => [.z, .n, .h]
  | .ldBD8 _ => []
  | .ldAMemBc => []
  | .decBc => []
  | .incC => [.z, .n, .h]
  | .decC => [.z, .n, .h]
  | .ldCD8 _ => []
  | .ldDeD16 _ => []
  | .ldMemDeA => []
  | .incDe => []
  | .incD => [.z, .n, .h]
  | .decD => [.z, .n, .h]
  | .ldDD8 _ => []
  | .rla => [.z, .n, .h, .c]
  | .jr _ => []
  | .ldAMemDe => []
  | .decDe => []
  | .incE => [.z, .n, .h]
  | .decE => [.z, .n, .h]
  | .ldED8 _ => []
  | .jrNz _ => []
  | .ldHlD16 _ => []
  | .ldMemHlIncA => []
  | .incHl => []
  | .incH => [.z, .n, .h]
  | .decH => [.z, .n, .h]
  | .ldHD8 _ => []
  | .jrZ _ => []
  | .ldAMemHlInc => []
  | .decHl => []
  | .incL => [.z, .n, .h]
  | .decL => [.z, .n, .h]
  | .ldLD8 _ => []
  | .jrNc _ => []
  | .ldSpD16 _ => []
  | .ldMemHlDecA => []
  | .incSp => []
  | .jrC _ => []
  | .ldAMemHlDec => []
  | .decSp => []
  | .incA => [.z, .n, .h]
  | .decA => [.z, .n, .h]
  | .ldAD8 _ => []
  | .ldBMemHl => []
  | .ldCMemHl => []
  | .ldDMemHl => []
  | .ldEMemHl => []
  | .ldHMemHl => []
  | .ldLMemHl => []
  | .ldMemHlB => []
  | .ldMemHlC => []
  | .ldMemHlD => []
  | .ldMemHlE => []
  | .ldMemHlH => []
  | .ldMemHlL => []
  | .ldMemHlA => []
  | .ldAMemHl => []
  | .subB => [.z, .n, .h, .c]
  | .subC => [.z, .n, .h, .c]
  | .subD => [.z, .n, .h, .c]
  | .subE => [.z, .n, .h, .c]
  | .subH => [.z, .n, .h, .c]
  | .subL => [.z, .n, .h, .c]
  | .subMemHl => [.z, .n, .h, .c]
  | .subA => [.z, .n, .h, .c]
  | .xorB => [.z]
  | .xorC => [.z]
  | .xorD => [.z]
  | .xorE => [.z]
  | .xorH => [.z]
  | .xorL => [.z]
  | .xorMemHl => [.z]
  | .xorA => [.z]
  | .cpB => [.z, .n, .h, .c]
  | .cpC => [.z, .n, .h, .c]
  | .cpD => [.z, .n, .h, .c]
  | .cpE => [.z, .n, .h, .c]
  | .cpH => [.z, .n, .h, .c]
  | .cpL => [.z, .n, .h, .c]
  | .cpMemHl => [.z, .n, .h, .c]
  | .cpA => [.z, .n, .h, .c]
  | .popBc => []
  | .jpNz _ => []
  | .jp _ => []
  | .pushBc => []
  | .ret => []
  | .jpZ _ => []
  | .cbPrefix b => if hasSecondaryEntry b then [.z, .n, .h, .c] else []
  | .call _ => []
  | .popDe => []
  | .jpNc _ => []
  | .pushDe => []
  | .subD8 _ => [.z, .n, .h, .c]
  | .jpC _ => []
  | .ldhMemA _ => []
  | .popHl => []
  | .ldMemCA => []
  | .pushHl => []
  | .xorD8 _ => [.z]
  | .ldhAMem _ => []
  | .popAf => [.z, .n, .h, .c]
  | .ldAMemC => []
  | .pushAf => []
  | .cpD8 _ => [.z, .n, .h, .c]
  | .rlB => [.z, .n, .h, .c]
  | .rlC => [.z, .n, .h, .c]
  | .rlD => [.z, .n, .h, .c]
  | .rlE => [.z, .n, .h, .c]
  | .rlH => [.z, .n, .h, .c]
  | .rlL => [.z, .n, .h, .c]
  | .rlA => [.z, .n, .h, .c]

/-- The slots an instruction's rule writes, F for its flags (40_loads.md to 45_nop.md). -/
def slotsWritten : Instr → List Slot
  | .nop => []
  | .ldBcD16 _ => [.b, .c]
  | .ldMemBcA => []
  | .incBc => [.b, .c]
  | .incB => [.b, .f]
  | .decB => [.b, .f]
  | .ldBD8 _ => [.b]
  | .ldAMemBc => [.a]
  | .decBc => [.b, .c]
  | .incC => [.c, .f]
  | .decC => [.c, .f]
  | .ldCD8 _ => [.c]
  | .ldDeD16 _ => [.d, .e]
  | .ldMemDeA => []
  | .incDe => [.d, .e]
  | .incD => [.d, .f]
  | .decD => [.d, .f]
  | .ldDD8 _ => [.d]
  | .rla => [.a, .f]
  | .jr _ => []
  | .ldAMemDe => [.a]
  | .decDe => [.d, .e]
  | .incE => [.e, .f]
  | .decE => [.e, .f]
  | .ldED8 _ => [.e]
  | .jrNz _ => []
  | .ldHlD16 _ => [.h, .l]
  | .ldMemHlIncA => [.h, .l]
  | .incHl => [.h, .l]
  | .incH => [.h, .f]
  | .decH => [.h, .f]
  | .ldHD8 _ => [.h]
  | .jrZ _ => []
  | .ldAMemHlInc => [.a, .h, .l]
  | .decHl => [.h, .l]
  | .incL => [.l, .f]
  | .decL => [.l, .f]
  | .ldLD8 _ => [.l]
  | .jrNc _ => []
  | .ldSpD16 _ => []
  | .ldMemHlDecA => [.h, .l]
  | .incSp => []
  | .jrC _ => []
  | .ldAMemHlDec => [.a, .h, .l]
  | .decSp => []
  | .incA => [.a, .f]
  | .decA => [.a, .f]
  | .ldAD8 _ => [.a]
  | .ldBMemHl => [.b]
  | .ldCMemHl => [.c]
  | .ldDMemHl => [.d]
  | .ldEMemHl => [.e]
  | .ldHMemHl => [.h]
  | .ldLMemHl => [.l]
  | .ldMemHlB => []
  | .ldMemHlC => []
  | .ldMemHlD => []
  | .ldMemHlE => []
  | .ldMemHlH => []
  | .ldMemHlL => []
  | .ldMemHlA => []
  | .ldAMemHl => [.a]
  | .subB => [.a, .f]
  | .subC => [.a, .f]
  | .subD => [.a, .f]
  | .subE => [.a, .f]
  | .subH => [.a, .f]
  | .subL => [.a, .f]
  | .subMemHl => [.a, .f]
  | .subA => [.a, .f]
  | .xorB => [.a, .f]
  | .xorC => [.a, .f]
  | .xorD => [.a, .f]
  | .xorE => [.a, .f]
  | .xorH => [.a, .f]
  | .xorL => [.a, .f]
  | .xorMemHl => [.a, .f]
  | .xorA => [.a, .f]
  | .cpB => [.f]
  | .cpC => [.f]
  | .cpD => [.f]
  | .cpE => [.f]
  | .cpH => [.f]
  | .cpL => [.f]
  | .cpMemHl => [.f]
  | .cpA => [.f]
  | .popBc => [.b, .c]
  | .jpNz _ => []
  | .jp _ => []
  | .pushBc => []
  | .ret => []
  | .jpZ _ => []
  | .cbPrefix b => ((rotateRegister b).map fun r => [r, .f]).getD []
  | .call _ => []
  | .popDe => [.d, .e]
  | .jpNc _ => []
  | .pushDe => []
  | .subD8 _ => [.a, .f]
  | .jpC _ => []
  | .ldhMemA _ => []
  | .popHl => [.h, .l]
  | .ldMemCA => []
  | .pushHl => []
  | .xorD8 _ => [.a, .f]
  | .ldhAMem _ => [.a]
  | .popAf => [.a, .f]
  | .ldAMemC => [.a]
  | .pushAf => []
  | .cpD8 _ => [.f]
  | .rlB => [.b, .f]
  | .rlC => [.c, .f]
  | .rlD => [.d, .f]
  | .rlE => [.e, .f]
  | .rlH => [.h, .f]
  | .rlL => [.l, .f]
  | .rlA => [.a, .f]

/-- The instructions that write SP (10_state.md R30). -/
def writesSp : Instr → Bool
  | .nop => false
  | .ldBcD16 _ => false
  | .ldMemBcA => false
  | .incBc => false
  | .incB => false
  | .decB => false
  | .ldBD8 _ => false
  | .ldAMemBc => false
  | .decBc => false
  | .incC => false
  | .decC => false
  | .ldCD8 _ => false
  | .ldDeD16 _ => false
  | .ldMemDeA => false
  | .incDe => false
  | .incD => false
  | .decD => false
  | .ldDD8 _ => false
  | .rla => false
  | .jr _ => false
  | .ldAMemDe => false
  | .decDe => false
  | .incE => false
  | .decE => false
  | .ldED8 _ => false
  | .jrNz _ => false
  | .ldHlD16 _ => false
  | .ldMemHlIncA => false
  | .incHl => false
  | .incH => false
  | .decH => false
  | .ldHD8 _ => false
  | .jrZ _ => false
  | .ldAMemHlInc => false
  | .decHl => false
  | .incL => false
  | .decL => false
  | .ldLD8 _ => false
  | .jrNc _ => false
  | .ldSpD16 _ => true
  | .ldMemHlDecA => false
  | .incSp => true
  | .jrC _ => false
  | .ldAMemHlDec => false
  | .decSp => true
  | .incA => false
  | .decA => false
  | .ldAD8 _ => false
  | .ldBMemHl => false
  | .ldCMemHl => false
  | .ldDMemHl => false
  | .ldEMemHl => false
  | .ldHMemHl => false
  | .ldLMemHl => false
  | .ldMemHlB => false
  | .ldMemHlC => false
  | .ldMemHlD => false
  | .ldMemHlE => false
  | .ldMemHlH => false
  | .ldMemHlL => false
  | .ldMemHlA => false
  | .ldAMemHl => false
  | .subB => false
  | .subC => false
  | .subD => false
  | .subE => false
  | .subH => false
  | .subL => false
  | .subMemHl => false
  | .subA => false
  | .xorB => false
  | .xorC => false
  | .xorD => false
  | .xorE => false
  | .xorH => false
  | .xorL => false
  | .xorMemHl => false
  | .xorA => false
  | .cpB => false
  | .cpC => false
  | .cpD => false
  | .cpE => false
  | .cpH => false
  | .cpL => false
  | .cpMemHl => false
  | .cpA => false
  | .popBc => true
  | .jpNz _ => false
  | .jp _ => false
  | .pushBc => true
  | .ret => true
  | .jpZ _ => false
  | .cbPrefix _ => false
  | .call _ => true
  | .popDe => true
  | .jpNc _ => false
  | .pushDe => true
  | .subD8 _ => false
  | .jpC _ => false
  | .ldhMemA _ => false
  | .popHl => true
  | .ldMemCA => false
  | .pushHl => true
  | .xorD8 _ => false
  | .ldhAMem _ => false
  | .popAf => true
  | .ldAMemC => false
  | .pushAf => true
  | .cpD8 _ => false
  | .rlB => false
  | .rlC => false
  | .rlD => false
  | .rlE => false
  | .rlH => false
  | .rlL => false
  | .rlA => false

/-- The control transfers (41_jumps_calls.md): the instructions after which PC need not be the next instruction's address. -/
def transfersControl : Instr → Bool
  | .nop => false
  | .ldBcD16 _ => false
  | .ldMemBcA => false
  | .incBc => false
  | .incB => false
  | .decB => false
  | .ldBD8 _ => false
  | .ldAMemBc => false
  | .decBc => false
  | .incC => false
  | .decC => false
  | .ldCD8 _ => false
  | .ldDeD16 _ => false
  | .ldMemDeA => false
  | .incDe => false
  | .incD => false
  | .decD => false
  | .ldDD8 _ => false
  | .rla => false
  | .jr _ => true
  | .ldAMemDe => false
  | .decDe => false
  | .incE => false
  | .decE => false
  | .ldED8 _ => false
  | .jrNz _ => true
  | .ldHlD16 _ => false
  | .ldMemHlIncA => false
  | .incHl => false
  | .incH => false
  | .decH => false
  | .ldHD8 _ => false
  | .jrZ _ => true
  | .ldAMemHlInc => false
  | .decHl => false
  | .incL => false
  | .decL => false
  | .ldLD8 _ => false
  | .jrNc _ => true
  | .ldSpD16 _ => false
  | .ldMemHlDecA => false
  | .incSp => false
  | .jrC _ => true
  | .ldAMemHlDec => false
  | .decSp => false
  | .incA => false
  | .decA => false
  | .ldAD8 _ => false
  | .ldBMemHl => false
  | .ldCMemHl => false
  | .ldDMemHl => false
  | .ldEMemHl => false
  | .ldHMemHl => false
  | .ldLMemHl => false
  | .ldMemHlB => false
  | .ldMemHlC => false
  | .ldMemHlD => false
  | .ldMemHlE => false
  | .ldMemHlH => false
  | .ldMemHlL => false
  | .ldMemHlA => false
  | .ldAMemHl => false
  | .subB => false
  | .subC => false
  | .subD => false
  | .subE => false
  | .subH => false
  | .subL => false
  | .subMemHl => false
  | .subA => false
  | .xorB => false
  | .xorC => false
  | .xorD => false
  | .xorE => false
  | .xorH => false
  | .xorL => false
  | .xorMemHl => false
  | .xorA => false
  | .cpB => false
  | .cpC => false
  | .cpD => false
  | .cpE => false
  | .cpH => false
  | .cpL => false
  | .cpMemHl => false
  | .cpA => false
  | .popBc => false
  | .jpNz _ => true
  | .jp _ => true
  | .pushBc => false
  | .ret => true
  | .jpZ _ => true
  | .cbPrefix _ => false
  | .call _ => true
  | .popDe => false
  | .jpNc _ => true
  | .pushDe => false
  | .subD8 _ => false
  | .jpC _ => true
  | .ldhMemA _ => false
  | .popHl => false
  | .ldMemCA => false
  | .pushHl => false
  | .xorD8 _ => false
  | .ldhAMem _ => false
  | .popAf => false
  | .ldAMemC => false
  | .pushAf => false
  | .cpD8 _ => false
  | .rlB => false
  | .rlC => false
  | .rlD => false
  | .rlE => false
  | .rlH => false
  | .rlL => false
  | .rlA => false

/-- The addresses an instruction stores to, computed from the registers as its meaning computes them. -/
def storedAddresses (s : State) : Instr → List Word
  | .nop => []
  | .ldBcD16 _ => []
  | .ldMemBcA => [MemOperand.address .bc s]
  | .incBc => []
  | .incB => []
  | .decB => []
  | .ldBD8 _ => []
  | .ldAMemBc => []
  | .decBc => []
  | .incC => []
  | .decC => []
  | .ldCD8 _ => []
  | .ldDeD16 _ => []
  | .ldMemDeA => [MemOperand.address .de s]
  | .incDe => []
  | .incD => []
  | .decD => []
  | .ldDD8 _ => []
  | .rla => []
  | .jr _ => []
  | .ldAMemDe => []
  | .decDe => []
  | .incE => []
  | .decE => []
  | .ldED8 _ => []
  | .jrNz _ => []
  | .ldHlD16 _ => []
  | .ldMemHlIncA => [MemOperand.address .hlInc s]
  | .incHl => []
  | .incH => []
  | .decH => []
  | .ldHD8 _ => []
  | .jrZ _ => []
  | .ldAMemHlInc => []
  | .decHl => []
  | .incL => []
  | .decL => []
  | .ldLD8 _ => []
  | .jrNc _ => []
  | .ldSpD16 _ => []
  | .ldMemHlDecA => [MemOperand.address .hlDec s]
  | .incSp => []
  | .jrC _ => []
  | .ldAMemHlDec => []
  | .decSp => []
  | .incA => []
  | .decA => []
  | .ldAD8 _ => []
  | .ldBMemHl => []
  | .ldCMemHl => []
  | .ldDMemHl => []
  | .ldEMemHl => []
  | .ldHMemHl => []
  | .ldLMemHl => []
  | .ldMemHlB => [MemOperand.address .hl s]
  | .ldMemHlC => [MemOperand.address .hl s]
  | .ldMemHlD => [MemOperand.address .hl s]
  | .ldMemHlE => [MemOperand.address .hl s]
  | .ldMemHlH => [MemOperand.address .hl s]
  | .ldMemHlL => [MemOperand.address .hl s]
  | .ldMemHlA => [MemOperand.address .hl s]
  | .ldAMemHl => []
  | .subB => []
  | .subC => []
  | .subD => []
  | .subE => []
  | .subH => []
  | .subL => []
  | .subMemHl => []
  | .subA => []
  | .xorB => []
  | .xorC => []
  | .xorD => []
  | .xorE => []
  | .xorH => []
  | .xorL => []
  | .xorMemHl => []
  | .xorA => []
  | .cpB => []
  | .cpC => []
  | .cpD => []
  | .cpE => []
  | .cpH => []
  | .cpL => []
  | .cpMemHl => []
  | .cpA => []
  | .popBc => []
  | .jpNz _ => []
  | .jp _ => []
  | .pushBc => [s.sp - 1, s.sp]
  | .ret => []
  | .jpZ _ => []
  | .cbPrefix _ => []
  | .call _ => [s.sp - 1, s.sp]
  | .popDe => []
  | .jpNc _ => []
  | .pushDe => [s.sp - 1, s.sp]
  | .subD8 _ => []
  | .jpC _ => []
  | .ldhMemA o => [MemOperand.address (.ioImm o) s]
  | .popHl => []
  | .ldMemCA => [MemOperand.address .ioC s]
  | .pushHl => [s.sp - 1, s.sp]
  | .xorD8 _ => []
  | .ldhAMem _ => []
  | .popAf => []
  | .ldAMemC => []
  | .pushAf => [s.sp - 1, s.sp]
  | .cpD8 _ => []
  | .rlB => []
  | .rlC => []
  | .rlD => []
  | .rlE => []
  | .rlH => []
  | .rlL => []
  | .rlA => []

/-- The addresses an instruction reads data from, computed from the registers as its meaning computes them; the bytes of the
instruction itself are the fetch's (30_encoding.md R90). -/
def readAddresses (s : State) : Instr → List Word
  | .nop => []
  | .ldBcD16 _ => []
  | .ldMemBcA => []
  | .incBc => []
  | .incB => []
  | .decB => []
  | .ldBD8 _ => []
  | .ldAMemBc => [MemOperand.address .bc s]
  | .decBc => []
  | .incC => []
  | .decC => []
  | .ldCD8 _ => []
  | .ldDeD16 _ => []
  | .ldMemDeA => []
  | .incDe => []
  | .incD => []
  | .decD => []
  | .ldDD8 _ => []
  | .rla => []
  | .jr _ => []
  | .ldAMemDe => [MemOperand.address .de s]
  | .decDe => []
  | .incE => []
  | .decE => []
  | .ldED8 _ => []
  | .jrNz _ => []
  | .ldHlD16 _ => []
  | .ldMemHlIncA => []
  | .incHl => []
  | .incH => []
  | .decH => []
  | .ldHD8 _ => []
  | .jrZ _ => []
  | .ldAMemHlInc => [MemOperand.address .hlInc s]
  | .decHl => []
  | .incL => []
  | .decL => []
  | .ldLD8 _ => []
  | .jrNc _ => []
  | .ldSpD16 _ => []
  | .ldMemHlDecA => []
  | .incSp => []
  | .jrC _ => []
  | .ldAMemHlDec => [MemOperand.address .hlDec s]
  | .decSp => []
  | .incA => []
  | .decA => []
  | .ldAD8 _ => []
  | .ldBMemHl => [MemOperand.address .hl s]
  | .ldCMemHl => [MemOperand.address .hl s]
  | .ldDMemHl => [MemOperand.address .hl s]
  | .ldEMemHl => [MemOperand.address .hl s]
  | .ldHMemHl => [MemOperand.address .hl s]
  | .ldLMemHl => [MemOperand.address .hl s]
  | .ldMemHlB => []
  | .ldMemHlC => []
  | .ldMemHlD => []
  | .ldMemHlE => []
  | .ldMemHlH => []
  | .ldMemHlL => []
  | .ldMemHlA => []
  | .ldAMemHl => [MemOperand.address .hl s]
  | .subB => []
  | .subC => []
  | .subD => []
  | .subE => []
  | .subH => []
  | .subL => []
  | .subMemHl => [s.pair .hl]
  | .subA => []
  | .xorB => []
  | .xorC => []
  | .xorD => []
  | .xorE => []
  | .xorH => []
  | .xorL => []
  | .xorMemHl => [s.pair .hl]
  | .xorA => []
  | .cpB => []
  | .cpC => []
  | .cpD => []
  | .cpE => []
  | .cpH => []
  | .cpL => []
  | .cpMemHl => [s.pair .hl]
  | .cpA => []
  | .popBc => [s.sp + 1, s.sp + 2]
  | .jpNz _ => []
  | .jp _ => []
  | .pushBc => []
  | .ret => [s.sp + 1, s.sp + 2]
  | .jpZ _ => []
  | .cbPrefix _ => []
  | .call _ => []
  | .popDe => [s.sp + 1, s.sp + 2]
  | .jpNc _ => []
  | .pushDe => []
  | .subD8 _ => []
  | .jpC _ => []
  | .ldhMemA _ => []
  | .popHl => [s.sp + 1, s.sp + 2]
  | .ldMemCA => []
  | .pushHl => []
  | .xorD8 _ => []
  | .ldhAMem o => [MemOperand.address (.ioImm o) s]
  | .popAf => [s.sp + 1, s.sp + 2]
  | .ldAMemC => [MemOperand.address .ioC s]
  | .pushAf => []
  | .cpD8 _ => []
  | .rlB => []
  | .rlC => []
  | .rlD => []
  | .rlE => []
  | .rlH => []
  | .rlL => []
  | .rlA => []

/-! ## Source values -/

/-- The value of a source operand of SUB, XOR and CP (43_arithmetic.md R174). -/
def Source.value (x : Source) (s : State) : Byte :=
  match x with
  | .slot r => s.slot r
  | .memHl => s.readValue (s.pair .hl)
  | .imm d => d

/-- The state reading a source operand leaves. -/
def Source.after (x : Source) (s : State) : State :=
  match x with
  | .slot _ => s
  | .memHl => s.afterRead (s.pair .hl)
  | .imm _ => s

/-- A source operand can be read: the memory form's address is mapped. -/
def Source.readable (x : Source) (s : State) : Bool :=
  match x with
  | .slot _ => true
  | .memHl => s.mapped (s.pair .hl)
  | .imm _ => true

end Sys2Proof.Machine
end

