-- ==== Sys2Proof/Certificates/Slice0/Obligations.lean ====
section
/-! DEFINITION. The statements for the provers, from the numbered rules of spec/. In every statement a meaning starts with PC at
the instruction's address (log 11), and a fault of the core is a next state whose status is Faulted (log 1). -/

open Sys2Proof Sys2Proof.Machine

/-! ## Encoding, decoding and the step -/

/-- Decoding an encoded well-formed instruction gives it back, with whatever bytes follow it (R80, R82, R84, R85, R86). -/
def Obligations.DecodeEncodeRoundTrip : Prop :=
  ∀ (i : Instr) (rest : List Byte), i.wf = true → decode (encode i ++ rest) = .ok (i, rest)

/-- Bytes that decode are the encoding of the well-formed instruction they decode to, and the bytes after it: each encoding has
one meaning and no two instructions share one (R82, R84, R87, R93). -/
def Obligations.DecodedBytesAreTheEncoding : Prop :=
  ∀ (bytes : List Byte) (i : Instr) (rest : List Byte),
    decode bytes = .ok (i, rest) → i.wf = true ∧ bytes = encode i ++ rest

/-- Words written out from the rules decode to the instructions they stand for; a byte may mean something different in each
table (R96). That CB CB decodes to the marker `cbPrefix 0xCB` is the model's choice (log 9): by R83 and R84 it
stands for no instruction, and the marker's meaning raises IllegalOpcode. -/
def Obligations.SpecWordsDecode : Prop :=
  decode [0xAF] = .ok (.xorA, []) ∧ decode [0x21, 0x34, 0x12] = .ok (.ldHlD16 0x1234, []) ∧
  decode [0xCD, 0x00, 0x02] = .ok (.call 0x0200, []) ∧ decode [0x11, 0x81, 0x40] = .ok (.ldDeD16 0x4081, []) ∧
  decode [0xCB, 0x11] = .ok (.rlC, []) ∧ decode [0x17] = .ok (.rla, []) ∧ decode [0xCB, 0x17] = .ok (.rlA, []) ∧
  decode [0x10] = .error (.illegalOpcode 0x10) ∧ decode [0xCB, 0x10] = .ok (.rlB, []) ∧
  decode [0xCB, 0xCB] = .ok (.cbPrefix 0xCB, []) ∧ decode [0x20, 0xFC] = .ok (.jrNz 0xFC, []) ∧
  decode [0xF1] = .ok (.popAf, []) ∧ decode [0xE0, 0x80] = .ok (.ldhMemA 0x80, []) ∧ decode [0x00] = .ok (.nop, [])

/-- R92 (the set of admitted bytes is the spec's own decision D1): the bytes with no entry are exactly the listed ones, 147
primary and 249 secondary, and each raises IllegalOpcode at decode time: the engine faults with PC after the byte and nothing
else changed (but for the draws of an arbitrary collaborator that supplied the bytes). -/
def Obligations.IllegalEncodingsFault : Prop :=
  (∀ b : Byte, (primaryEntry b).isNone = illegalPrimary b ∧ (secondaryEntry b).isNone = illegalSecondary b) ∧
  (List.range 256).countP (fun n => illegalPrimary (BitVec.ofNat 8 n)) = 147 ∧
  (List.range 256).countP (fun n => illegalSecondary (BitVec.ofNat 8 n)) = 249 ∧
  (∀ s : State, s.status = .running → s.codeMapped 1 → illegalPrimary (s.codeByte 0) = true →
    step s = .next ((s.afterFetch 1).faultedAt 1 (.illegalOpcode (s.codeByte 0) false))) ∧
  (∀ s : State, s.status = .running → s.codeMapped 2 → s.codeByte 0 = 0xCB → illegalSecondary (s.codeByte 1) = true →
    step s = .next ((s.afterFetch 2).faultedAt 2 (.illegalOpcode (s.codeByte 1) true)))

/-- R94: an instruction's length is known from its first byte alone. -/
def Obligations.LengthFromFirstByte : Prop :=
  ∀ (b : Byte) (x y : List Byte) (i j : Instr) (p q : List Byte),
    decode (b :: x) = .ok (i, p) → decode (b :: y) = .ok (j, q) → i.length = j.length ∧ (encode i).length = i.length

/-- R90: when the bytes at PC are mapped and decode to a well-formed instruction, a step runs exactly it. The step adds nothing
around `exec` but the draws an arbitrary I/O collaborator supplied the bytes with; where it supplied none, not even those. -/
def Obligations.StepRunsDecodedInstruction : Prop :=
  ∀ (s : State) (i : Instr), s.status = .running → i.wf = true → s.codeMapped i.length →
    decode (s.codeBytes i.length) = .ok (i, []) →
    step s = exec i (s.afterFetch i.length) ∧
    ((∀ k < i.length, s.delegated (s.pc + BitVec.ofNat 16 k) = false) →
      s.codeBytes i.length = (List.range i.length).map (fun k => s.peek (s.pc + BitVec.ofNat 16 k)) ∧ step s = exec i s)

/-- R303, the rows of the fetch: where PC is left and what is raised when an instruction byte is unmapped. -/
def Obligations.FetchFaults : Prop :=
  ∀ s : State, s.status = .running →
    (s.mapped s.pc = false → step s = .next (s.faultedAt 0 (.unmappedAddress s.pc))) ∧
    (s.mapped s.pc = true → s.mapped (s.pc + 1) = false → s.codeByte 0 = 0xCB →
      step s = .next ((s.afterFetch 1).faultedAt 1 (.unmappedAddress (s.pc + 1)))) ∧
    (s.mapped s.pc = true → s.mapped (s.pc + 1) = false →
      s.codeByte 0 ∈ lengthTwoOpcodes ∨ s.codeByte 0 ∈ lengthThreeOpcodes →
      step s = .next ((s.afterFetch 1).faultedAt 1 (.unmappedAddress (s.pc + 1)))) ∧
    (s.mapped s.pc = true → s.mapped (s.pc + 1) = true → s.mapped (s.pc + 2) = false →
      s.codeByte 0 ∈ lengthThreeOpcodes →
      step s = .next ((s.afterFetch 2).faultedAt 1 (.unmappedAddress (s.pc + 2))))

/-- R33, R301 (the status is the spec's own decision D15; that a fault is a next state is log 1): the status starts as Running;
a step from Running completes with the status Running or raises a fault, whose record names the PC the step began at; in status
Faulted the engine has no step. -/
def Obligations.StatusTransitions : Prop :=
  State.reset.status = .running ∧
  (∀ s : State, s.status = .running → ∃ t, step s = .next t ∧
    (t.status = .running ∨ ∃ k, t.status = .faulted { kind := k, pcStart := s.pc })) ∧
  (∀ (s : State) (r : FaultRecord), s.status = .faulted r → step s = .fault (.engineStopped r))

/-! ## The address router and memory -/

/-- R53: the region table of each map mode, and the addresses no region covers (R55, which the spec derives from it). -/
def Obligations.RouterFollowsRegionTable : Prop :=
  (∀ (m : MapMode) (a : Word), route m a =
    if m = .bootMap ∧ a.toNat ≤ 0x00FE then
      some { name := .boot, base := 0x0000, size := 255, storage := .readOnlyImage, writable := false }
    else if m = .cartridgeMap ∧ a.toNat ≤ 0x3FFF then
      some { name := .cartridge, base := 0x0000, size := 16384, storage := .readOnlyImage, writable := false }
    else if 0x8000 ≤ a.toNat ∧ a.toNat ≤ 0x9FFF then
      some { name := .video, base := 0x8000, size := 8192, storage := .readWriteMemory, writable := true }
    else if 0xC000 ≤ a.toNat ∧ a.toNat ≤ 0xDFFF then
      some { name := .work, base := 0xC000, size := 8192, storage := .readWriteMemory, writable := true }
    else if 0xFF00 ≤ a.toNat ∧ a.toNat ≤ 0xFF4B then
      some { name := .io, base := 0xFF00, size := 76, storage := .ioDelegation, writable := true }
    else if 0xFF80 ≤ a.toNat ∧ a.toNat ≤ 0xFFFE then
      some { name := .high, base := 0xFF80, size := 127, storage := .readWriteMemory, writable := true }
    else none) ∧
  (∀ (m : MapMode) (a : Word), route m a = none ↔
    (m = .bootMap ∧ 0x00FF ≤ a.toNat ∧ a.toNat ≤ 0x7FFF) ∨ (m = .cartridgeMap ∧ 0x4000 ≤ a.toNat ∧ a.toNat ≤ 0x7FFF) ∨
    (0xA000 ≤ a.toNat ∧ a.toNat ≤ 0xBFFF) ∨ (0xE000 ≤ a.toNat ∧ a.toNat ≤ 0xFEFF) ∨
    (0xFF4C ≤ a.toNat ∧ a.toNat ≤ 0xFF7F) ∨ a.toNat = 0xFFFF)

/-- R52: `map` returns the unique region whose range contains the address, or fails when no region does, with UnmappedAddress.
-/
def Obligations.RegionsNeverOverlap : Prop :=
  ∀ (m : MapMode) (a : Word),
    (∀ r, route m a = some r ↔ r ∈ regionTable m ∧ r.base ≤ a.toNat ∧ a.toNat ≤ r.base + r.size - 1) ∧
    (∀ r ∈ regionTable m, ∀ q ∈ regionTable m, r.covers a = true → q.covers a = true → r = q) ∧
    (route m a = none ↔ ∀ r ∈ regionTable m, r.covers a = false) ∧
    (∀ (s : State) (v : Byte), s.config.mapMode = m → route m a = none →
      readByte a s = .raise (.unmappedAddress a) s ∧ writeByte a v s = .raise (.unmappedAddress a) s)

/-- R76: the boundaries of every region, and a write to the read-only image's base address. -/
def Obligations.RegionBoundaries : Prop :=
  (∀ m ∈ [MapMode.bootMap, .cartridgeMap], ∀ r ∈ regionTable m,
    route m (BitVec.ofNat 16 r.base) = some r ∧ route m (BitVec.ofNat 16 (r.base + r.size - 1)) = some r ∧
    route m (BitVec.ofNat 16 (r.base + r.size)) = none) ∧
  (∀ (s : State) (v : Byte), writeByte 0x0000 v s = .raise (.readOnlyViolation 0x0000) s)

/-- R56, R57: where no arbitrary I/O collaborator answers, a byte read returns the region's byte or raises UnmappedAddress; a
byte write raises UnmappedAddress, or raises ReadOnlyViolation and changes nothing, or stores the byte and nothing else. -/
def Obligations.ByteAccessRoutes : Prop :=
  ∀ (a : Word) (v : Byte) (s : State), s.delegated a = false →
    (route s.config.mapMode a = none →
      readByte a s = .raise (.unmappedAddress a) s ∧ writeByte a v s = .raise (.unmappedAddress a) s) ∧
    (∀ r, route s.config.mapMode a = some r →
      readByte a s = .ok (s.peek a) s ∧
      (r.writable = false → writeByte a v s = .raise (.readOnlyViolation a) s) ∧
      (r.writable = true →
        ∃ t, writeByte a v s = .ok () t ∧ t = { s with mem := t.mem } ∧ t.peek a = v ∧ ∀ b, b ≠ a → t.peek b = s.peek b))

/-- R59: an I/O address behind an arbitrary collaborator (log 8, a choice of the model): a read answers the next free value,
whatever it is, and a write sends the collaborator its event; neither changes memory or a register. With plain storage no
address is delegated. -/
def Obligations.IoDelegation : Prop :=
  ∀ (a : Word) (v : Byte) (s : State),
    (s.delegated a = true ↔ s.config.io = .arbitrary ∧ 0xFF00 ≤ a.toNat ∧ a.toNat ≤ 0xFF4B) ∧
    (s.delegated a = true →
      readByte a s = .ok (Config.ioGet s.draws a) { s with draws := s.draws + 1 } ∧
      writeByte a v s = .ok () { s with ioOut := (a.toNat, v) :: s.ioOut })

/-- R58, R71: a read of a storage byte returns the value of the most recent write to it, and a write disturbs no other byte a
read can see. Where that other byte is one an arbitrary collaborator answers (R59), that it reads the same before and after is
the model's choice (log 8): equal counters give equal free values. -/
def Obligations.StoreThenLoad : Prop :=
  ∀ (a b : Word) (v : Byte) (s t : State), writeByte a v s = .ok () t → s.delegated a = false →
    readByte a t = .ok v t ∧
    (b ≠ a → ∀ w u, readByte b s = .ok w u → ∃ u', readByte b t = .ok w u' ∧ u' = { u with mem := t.mem })

/-- R61, R63: a word access is two byte accesses, the lower address first, little-endian, the second address modulo 2^16; when
the first raises the second is not performed, and when the second of a write raises the first stays written. -/
def Obligations.WordAccessLittleEndian : Prop :=
  (∀ (a : Word) (s : State),
    (s.mapped a = false → readWord a s = .raise (.unmappedAddress a) s) ∧
    (s.mapped a = true → s.mapped (a + 1) = false →
      readWord a s = .raise (.unmappedAddress (a + 1)) (s.afterRead a)) ∧
    (s.mapped a = true → s.mapped (a + 1) = true → ∃ w,
      readWord a s = .ok w ((s.afterRead a).afterRead (a + 1)) ∧
      w.toNat = ((s.afterRead a).readValue (a + 1)).toNat * 256 + (s.readValue a).toNat)) ∧
  (∀ (a v : Word) (s : State),
    (s.writable a = false → writeWord a v s = .raise (s.writeFault a) s) ∧
    (s.writable a = true → s.writable (a + 1) = false →
      writeWord a v s = .raise (s.writeFault (a + 1)) (s.store a (BitVec.ofNat 8 (v.toNat % 256)))) ∧
    (s.writable a = true → s.writable (a + 1) = true →
      writeWord a v s = .ok ()
        ((s.store a (BitVec.ofNat 8 (v.toNat % 256))).store (a + 1) (BitVec.ofNat 8 (v.toNat / 256)))))

/-- R160, R161: a push writes the word at sp-1 and then subtracts 2 from SP; a pop reads the word at sp+1 and then adds 2. When
either byte faults SP is unchanged. -/
def Obligations.StackConvention : Prop :=
  ∀ (s : State) (v : Word),
    (∀ t, writeWord (s.sp - 1) v s = .ok () t → push v s = .ok () { t with sp := s.sp - 2 }) ∧
    (∀ k t, writeWord (s.sp - 1) v s = .raise k t → push v s = .raise k t ∧ t.sp = s.sp) ∧
    (s.writable (s.sp - 1) = true → s.writable s.sp = true → push v s = .ok ()
      { (s.store (s.sp - 1) (loByte v)).store s.sp (hiByte v) with sp := s.sp - 2 }) ∧
    (∀ w t, readWord (s.sp + 1) s = .ok w t → pop s = .ok w { t with sp := s.sp + 2 }) ∧
    (∀ k t, readWord (s.sp + 1) s = .raise k t → pop s = .raise k t ∧ t.sp = s.sp) ∧
    (s.mapped (s.sp + 1) = true → s.mapped (s.sp + 2) = true → ∃ t, pop s = .ok
      (cat ((s.afterRead (s.sp + 1)).readValue (s.sp + 2)) (s.readValue (s.sp + 1))) t ∧ t.sp = s.sp + 2)

/-- R162: push then pop returns the value and restores SP, wherever both stack bytes are writable bytes the core itself holds
(an arbitrary I/O collaborator need not answer with what it received, R59). -/
def Obligations.PushPopInverse : Prop :=
  ∀ (s : State) (v : Word), s.writable (s.sp - 1) = true → s.writable s.sp = true →
    s.delegated (s.sp - 1) = false → s.delegated s.sp = false →
    ∃ t, push v s = .ok () t ∧ pop t = .ok v { t with sp := s.sp }

/-- R64, R334: a word access at 0xFFFF raises UnmappedAddress there before 0x0000 is touched; with SP = 0x0000, as the default
construction leaves it, a push so faults and a pop reads 0x0001 and 0x0002 and succeeds. -/
def Obligations.TopOfBusAndDefaultStack : Prop :=
  (∀ (v : Word) (s : State), readWord 0xFFFF s = .raise (.unmappedAddress 0xFFFF) s ∧
    writeWord 0xFFFF v s = .raise (.unmappedAddress 0xFFFF) s) ∧
  State.reset.sp = 0 ∧
  ∀ (s : State) (v : Word), s.sp = 0 →
    push v s = .raise (.unmappedAddress 0xFFFF) s ∧ pop s = .ok (cat (s.peek 2) (s.peek 1)) { s with sp := 2 }

/-! ## Registers and flags -/

/-- R22, R23: a pair reads as its high slot and low slot, high byte first; a pair write writes the high byte to the one and the
low byte to the other, F without its low nibble, and changes no other slot and nothing else. -/
def Obligations.RegisterPairs : Prop :=
  ∀ x ∈ [(Pair.af, Slot.a, Slot.f), (.bc, .b, .c), (.de, .d, .e), (.hl, .h, .l)], ∀ (s : State) (v : Word),
    (s.pair x.1).toNat = (s.slot x.2.1).toNat * 256 + (s.slot x.2.2).toNat ∧
    ((s.setPair x.1 v).slot x.2.1).toNat = v.toNat / 256 ∧
    ((s.setPair x.1 v).slot x.2.2).toNat = (if x.1 = .af then v &&& 0xFFF0 else v).toNat % 256 ∧
    (∀ q, q ≠ x.2.1 → q ≠ x.2.2 → (s.setPair x.1 v).slot q = s.slot q) ∧
    s.setPair x.1 v = { s with regs := (s.setPair x.1 v).regs }

/-- R24 (which the spec derives from R23 and R26): a pair reads back the word written to it, AF without bits 3..0, and its slots
read back the word's bytes. -/
def Obligations.RegisterPairRoundTrip : Prop :=
  ∀ (s : State) (v : Word) (p : Pair),
    (s.setPair p v).pair p = (if p = .af then v &&& 0xFFF0 else v) ∧
    (s.setPair p v).slot p.hi = BitVec.ofNat 8 (v.toNat / 256) ∧
    (s.setPair p v).slot p.lo = (if p = .af then BitVec.ofNat 8 v.toNat &&& 0xF0 else BitVec.ofNat 8 v.toNat)

/-- R26, R27: the flags' bit positions; setting a flag sets that bit, preserves the other flags and changes nothing but F; bits
3..0 of F read as 0 at all times, and a write of the whole byte stores it without them. -/
def Obligations.FlagAccess : Prop :=
  ∀ (s : State) (f : Flag) (on : Bool),
    (s.flag .z = (s.slot .f).getLsbD 7 ∧ s.flag .n = (s.slot .f).getLsbD 6 ∧ s.flag .h = (s.slot .f).getLsbD 5 ∧
      s.flag .c = (s.slot .f).getLsbD 4) ∧
    (∀ g, (s.setFlag f on).flag g = if g = f then on else s.flag g) ∧
    (∀ q, q ≠ .f → (s.setFlag f on).slot q = s.slot q) ∧
    s.setFlag f on = { s with regs := (s.setFlag f on).regs } ∧
    s.slot .f &&& 0x0F = 0 ∧ ∀ v, (s.setSlot .f v).slot .f = v &&& 0xF0

/-! ## Results: loads and stores -/

/-- R101 to R107: LD r,d8 stores the immediate in its slot and changes no other slot, no flag and nothing else but PC. -/
def Obligations.LoadImmediateByte : Prop :=
  ∀ (s : State) (d : Byte), ∀ x ∈ [(Instr.ldBD8 d, Slot.b), (.ldCD8 d, .c), (.ldDD8 d, .d), (.ldED8 d, .e), (.ldHD8 d, .h),
      (.ldLD8 d, .l), (.ldAD8 d, .a)],
    ∃ t, exec x.1 s = .next t ∧ t = { s with regs := t.regs, pc := s.pc + 2 } ∧ t.slot x.2 = d ∧
      ∀ q, q ≠ x.2 → t.slot q = s.slot q

/-- R108 to R111: LD rr,d16 stores the immediate in its pair, high byte to the high slot, or in SP. -/
def Obligations.LoadImmediateWord : Prop :=
  (∀ (s : State) (v : Word), ∀ x ∈ [(Instr.ldBcD16 v, Slot.b, Slot.c), (.ldDeD16 v, .d, .e), (.ldHlD16 v, .h, .l)],
    ∃ t, exec x.1 s = .next t ∧ t = { s with regs := t.regs, pc := s.pc + 3 } ∧
      (t.slot x.2.1).toNat = v.toNat / 256 ∧ (t.slot x.2.2).toNat = v.toNat % 256 ∧
      ∀ q, q ≠ x.2.1 → q ≠ x.2.2 → t.slot q = s.slot q) ∧
  (∀ (s : State) (v : Word), exec (.ldSpD16 v) s = .next { s with sp := v, pc := s.pc + 3 })

/-- R112, R113, R127 to R134, R136: a store that leaves HL puts its slot at the address its operand gives, when that address is
writable, and changes nothing else but PC. -/
def Obligations.StoreResult : Prop :=
  ∀ (s : State) (o : Byte), ∀ x ∈ [(Instr.ldMemBcA, s.pair .bc, Slot.a, (1 : Word)), (.ldMemDeA, s.pair .de, .a, 1),
      (.ldMemHlB, s.pair .hl, .b, 1), (.ldMemHlC, s.pair .hl, .c, 1), (.ldMemHlD, s.pair .hl, .d, 1),
      (.ldMemHlE, s.pair .hl, .e, 1), (.ldMemHlH, s.pair .hl, .h, 1), (.ldMemHlL, s.pair .hl, .l, 1),
      (.ldMemHlA, s.pair .hl, .a, 1), (.ldhMemA o, 0xFF00 + zext16 o, .a, 2),
      (.ldMemCA, 0xFF00 + zext16 (s.slot .c), .a, 1)],
    s.writable x.2.1 = true →
    ∃ t, exec x.1 s = .next t ∧ t = { s.store x.2.1 (s.slot x.2.2.1) with pc := s.pc + x.2.2.2 } ∧
      (s.delegated x.2.1 = false → t.peek x.2.1 = s.slot x.2.2.1) ∧ ∀ b, b ≠ x.2.1 → t.peek b = s.peek b

/-- R114, R115: LD (HL+),A and LD (HL-),A store A at the address in HL, when it is writable, and then move HL by one. -/
def Obligations.StoreThenMoveHl : Prop :=
  ∀ s : State, ∀ x ∈ [(Instr.ldMemHlIncA, s.pair .hl + 1), (.ldMemHlDecA, s.pair .hl - 1)],
    s.writable (s.pair .hl) = true →
    ∃ t, exec x.1 s = .next t ∧
      t = { s.store (s.pair .hl) (s.slot .a) with regs := t.regs, pc := s.pc + 1 } ∧
      t.pair .hl = x.2 ∧ (∀ q, q ≠ .h → q ≠ .l → t.slot q = s.slot q) ∧
      (s.delegated (s.pair .hl) = false → t.peek (s.pair .hl) = s.slot .a) ∧
      ∀ b, b ≠ s.pair .hl → t.peek b = s.peek b

/-- R112 to R115, R127 to R134, R136, R304: a store to an address that is not writable raises UnmappedAddress or
ReadOnlyViolation; PC is past the instruction, nothing is written and no register changes. -/
def Obligations.StoreFaults : Prop :=
  ∀ (s : State) (o : Byte), ∀ x ∈ [(Instr.ldMemBcA, s.pair .bc, (1 : Word)), (.ldMemDeA, s.pair .de, 1),
      (.ldMemHlIncA, s.pair .hl, 1), (.ldMemHlDecA, s.pair .hl, 1), (.ldMemHlB, s.pair .hl, 1),
      (.ldMemHlC, s.pair .hl, 1), (.ldMemHlD, s.pair .hl, 1), (.ldMemHlE, s.pair .hl, 1), (.ldMemHlH, s.pair .hl, 1),
      (.ldMemHlL, s.pair .hl, 1), (.ldMemHlA, s.pair .hl, 1), (.ldhMemA o, 0xFF00 + zext16 o, 2),
      (.ldMemCA, 0xFF00 + zext16 (s.slot .c), 1)],
    (s.mapped x.2.1 = false → exec x.1 s = .next (s.faultedAt x.2.2 (.unmappedAddress x.2.1))) ∧
    (s.mapped x.2.1 = true → s.writable x.2.1 = false →
      exec x.1 s = .next (s.faultedAt x.2.2 (.readOnlyViolation x.2.1)))

/-- R116, R117, R120 to R126, R135, R137: a load that leaves HL writes its slot with the byte read at the address its operand
gives, when that address is mapped; the address is taken before the slot is written. -/
def Obligations.LoadResult : Prop :=
  ∀ (s : State) (o : Byte), ∀ x ∈ [(Instr.ldAMemBc, Slot.a, s.pair .bc, (1 : Word)), (.ldAMemDe, .a, s.pair .de, 1),
      (.ldBMemHl, .b, s.pair .hl, 1), (.ldCMemHl, .c, s.pair .hl, 1), (.ldDMemHl, .d, s.pair .hl, 1),
      (.ldEMemHl, .e, s.pair .hl, 1), (.ldHMemHl, .h, s.pair .hl, 1), (.ldLMemHl, .l, s.pair .hl, 1),
      (.ldAMemHl, .a, s.pair .hl, 1), (.ldhAMem o, .a, 0xFF00 + zext16 o, 2),
      (.ldAMemC, .a, 0xFF00 + zext16 (s.slot .c), 1)],
    s.mapped x.2.2.1 = true →
    ∃ t, exec x.1 s = .next t ∧ t = { s.afterRead x.2.2.1 with regs := t.regs, pc := s.pc + x.2.2.2 } ∧
      t.slot x.2.1 = s.readValue x.2.2.1 ∧ ∀ q, q ≠ x.2.1 → t.slot q = s.slot q

/-- R118, R119: LD A,(HL+) and LD A,(HL-) load A from the address in HL, when it is mapped, and then move HL by one. -/
def Obligations.LoadThenMoveHl : Prop :=
  ∀ s : State, ∀ x ∈ [(Instr.ldAMemHlInc, s.pair .hl + 1), (.ldAMemHlDec, s.pair .hl - 1)],
    s.mapped (s.pair .hl) = true →
    ∃ t, exec x.1 s = .next t ∧ t = { s.afterRead (s.pair .hl) with regs := t.regs, pc := s.pc + 1 } ∧
      t.slot .a = s.readValue (s.pair .hl) ∧ t.pair .hl = x.2 ∧
      ∀ q, q ≠ .a → q ≠ .h → q ≠ .l → t.slot q = s.slot q

/-- R116 to R126, R135, R137, R205, R214, R223: a data read at an unmapped address raises UnmappedAddress; PC is past the
instruction and no register, flag or byte changes. -/
def Obligations.ReadFaults : Prop :=
  ∀ (s : State) (o : Byte), ∀ x ∈ [(Instr.ldAMemBc, s.pair .bc, (1 : Word)), (.ldAMemDe, s.pair .de, 1),
      (.ldAMemHlInc, s.pair .hl, 1), (.ldAMemHlDec, s.pair .hl, 1), (.ldBMemHl, s.pair .hl, 1),
      (.ldCMemHl, s.pair .hl, 1), (.ldDMemHl, s.pair .hl, 1), (.ldEMemHl, s.pair .hl, 1), (.ldHMemHl, s.pair .hl, 1),
      (.ldLMemHl, s.pair .hl, 1), (.ldAMemHl, s.pair .hl, 1), (.ldhAMem o, 0xFF00 + zext16 o, 2),
      (.ldAMemC, 0xFF00 + zext16 (s.slot .c), 1), (.subMemHl, s.pair .hl, 1), (.xorMemHl, s.pair .hl, 1),
      (.cpMemHl, s.pair .hl, 1)],
    s.mapped x.2.1 = false → exec x.1 s = .next (s.faultedAt x.2.2 (.unmappedAddress x.2.1))

/-! ## Results: jumps, calls, returns and the stack -/

/-- R140 to R145: JR and JR cc add the signed offset to the address after the instruction when the condition holds, modulo 2^16,
and go on after the instruction when it does not; they change nothing but PC. -/
def Obligations.RelativeJumps : Prop :=
  ∀ (s : State) (o : Byte), ∀ x ∈ [(Instr.jr o, true), (.jrNz o, !s.flag .z), (.jrZ o, s.flag .z), (.jrNc o, !s.flag .c),
      (.jrC o, s.flag .c)],
    exec x.1 s = .next { s with pc := if x.2 then BitVec.ofInt 16 (s.pc.toNat + 2 + o.toInt) else s.pc + 2 }

/-- R140, R146 to R150: JP and JP cc go to the immediate address when the condition holds and on after the instruction when it
does not; they change nothing but PC. -/
def Obligations.AbsoluteJumps : Prop :=
  ∀ (s : State) (t : Word), ∀ x ∈ [(Instr.jp t, true), (.jpNz t, !s.flag .z), (.jpZ t, s.flag .z), (.jpNc t, !s.flag .c),
      (.jpC t, s.flag .c)],
    exec x.1 s = .next { s with pc := if x.2 then t else s.pc + 3 }

/-- R151, R163 to R166: CALL and PUSH write the word's low byte at sp-1 and its high byte at sp, when both are writable, then
subtract 2 from SP; CALL's word is the address after it, and it goes to its immediate. -/
def Obligations.StackWrites : Prop :=
  ∀ (s : State) (a : Word), ∀ x ∈ [(Instr.call a, s.pc + 3, a), (.pushBc, s.pair .bc, s.pc + 1),
      (.pushDe, s.pair .de, s.pc + 1), (.pushHl, s.pair .hl, s.pc + 1), (.pushAf, s.pair .af, s.pc + 1)],
    s.writable (s.sp - 1) = true → s.writable s.sp = true →
    ∃ t, exec x.1 s = .next t ∧
      t = { (s.store (s.sp - 1) (loByte x.2.1)).store s.sp (hiByte x.2.1) with sp := s.sp - 2, pc := x.2.2 } ∧
      (s.delegated (s.sp - 1) = false → t.peek (s.sp - 1) = loByte x.2.1) ∧
      (s.delegated s.sp = false → t.peek s.sp = hiByte x.2.1) ∧
      ∀ b, b ≠ s.sp - 1 → b ≠ s.sp → t.peek b = s.peek b

/-- R151, R163 to R166, R303: a push whose first byte is not writable leaves nothing written; one whose second byte is not
leaves the low byte written; SP is unchanged, there is no jump, and PC is past the instruction. -/
def Obligations.StackWriteFaults : Prop :=
  ∀ (s : State) (a : Word), ∀ x ∈ [(Instr.call a, s.pc + 3, (3 : Word)), (.pushBc, s.pair .bc, 1),
      (.pushDe, s.pair .de, 1), (.pushHl, s.pair .hl, 1), (.pushAf, s.pair .af, 1)],
    (s.writable (s.sp - 1) = false → exec x.1 s = .next (s.faultedAt x.2.2 (s.writeFault (s.sp - 1)))) ∧
    (s.writable (s.sp - 1) = true → s.writable s.sp = false →
      exec x.1 s = .next ((s.store (s.sp - 1) (loByte x.2.1)).faultedAt x.2.2 (s.writeFault s.sp)))

/-- R152: RET takes PC from the word at sp+1, low byte first, when both bytes are mapped, and adds 2 to SP. -/
def Obligations.ReturnResult : Prop :=
  ∀ s : State, s.mapped (s.sp + 1) = true → s.mapped (s.sp + 2) = true →
    ∃ t, exec .ret s = .next t ∧
      t = { (s.afterRead (s.sp + 1)).afterRead (s.sp + 2) with sp := s.sp + 2, pc := t.pc } ∧
      t.pc.toNat = ((s.afterRead (s.sp + 1)).readValue (s.sp + 2)).toNat * 256 + (s.readValue (s.sp + 1)).toNat

/-- R167 to R170: POP takes its pair from the word at sp+1, when both bytes are mapped, and adds 2 to SP: the byte at sp+1 to
the low slot, the byte at sp+2 to the high slot. POP AF loads all four flags and drops bits 3..0. -/
def Obligations.PopResult : Prop :=
  ∀ s : State, ∀ x ∈ [(Instr.popBc, Slot.b, Slot.c), (.popDe, .d, .e), (.popHl, .h, .l), (.popAf, .a, .f)],
    s.mapped (s.sp + 1) = true → s.mapped (s.sp + 2) = true →
    ∃ t, exec x.1 s = .next t ∧
      t = { (s.afterRead (s.sp + 1)).afterRead (s.sp + 2) with regs := t.regs, sp := s.sp + 2, pc := s.pc + 1 } ∧
      t.slot x.2.1 = (s.afterRead (s.sp + 1)).readValue (s.sp + 2) ∧
      t.slot x.2.2 = (if x.2.2 = .f then s.readValue (s.sp + 1) &&& 0xF0 else s.readValue (s.sp + 1)) ∧
      (∀ q, q ≠ x.2.1 → q ≠ x.2.2 → t.slot q = s.slot q) ∧
      (∀ f, t.flag f = if x.2.2 = .f then (s.readValue (s.sp + 1)).getLsbD f.bit else s.flag f)

/-- R152, R167 to R170, R303: a return or pop one of whose stack bytes is unmapped raises UnmappedAddress there; SP and the
destination are unchanged, and PC is past the instruction. -/
def Obligations.StackReadFaults : Prop :=
  ∀ s : State, ∀ i ∈ [Instr.ret, .popBc, .popDe, .popHl, .popAf],
    (s.mapped (s.sp + 1) = false → exec i s = .next (s.faultedAt 1 (.unmappedAddress (s.sp + 1)))) ∧
    (s.mapped (s.sp + 1) = true → s.mapped (s.sp + 2) = false →
      exec i s = .next ((s.afterRead (s.sp + 1)).faultedAt 1 (.unmappedAddress (s.sp + 2))))

/-- R162: a call and then a return, with no stack traffic between, resume after the call with SP and the registers restored,
wherever the stack bytes are writable bytes the core itself holds. -/
def Obligations.CallThenReturn : Prop :=
  ∀ (s : State) (a : Word), s.writable (s.sp - 1) = true → s.writable s.sp = true →
    s.delegated (s.sp - 1) = false → s.delegated s.sp = false →
    ∃ t, exec (.call a) s = .next t ∧ t.pc = a ∧
      ∀ b : Word, exec .ret (t.setPc b) = .next { s with pc := s.pc + 3, mem := t.mem }

/-! ## Results: arithmetic, rotates, no-op and the prefix -/

/-- R171, R177 to R183: INC r adds 1 modulo 2^8 and writes Z, N and H; C and every other slot are unchanged. -/
def Obligations.IncrementByte : Prop :=
  ∀ s : State, ∀ x ∈ [(Instr.incB, Slot.b), (.incC, .c), (.incD, .d), (.incE, .e), (.incH, .h), (.incL, .l), (.incA, .a)],
    ∃ t, exec x.1 s = .next t ∧ t = { s with regs := t.regs, pc := s.pc + 1 } ∧
      t.slot x.2 = s.slot x.2 + 1 ∧ (∀ q, q ≠ x.2 → q ≠ .f → t.slot q = s.slot q) ∧
      t.flag .z = (s.slot x.2 + 1 == 0) ∧ t.flag .n = false ∧
      t.flag .h = ((((s.slot x.2 &&& 0xF) + 1) &&& 0x10) != 0) ∧ (t.flag .h = true ↔ s.slot x.2 &&& 0xF = 0xF) ∧
      t.flag .c = s.flag .c

/-- R172, R184 to R190: DEC r subtracts 1 modulo 2^8 and writes Z, N and H; C and every other slot are unchanged. -/
def Obligations.DecrementByte : Prop :=
  ∀ s : State, ∀ x ∈ [(Instr.decB, Slot.b), (.decC, .c), (.decD, .d), (.decE, .e), (.decH, .h), (.decL, .l), (.decA, .a)],
    ∃ t, exec x.1 s = .next t ∧ t = { s with regs := t.regs, pc := s.pc + 1 } ∧
      t.slot x.2 = s.slot x.2 - 1 ∧ (∀ q, q ≠ x.2 → q ≠ .f → t.slot q = s.slot q) ∧
      t.flag .z = (s.slot x.2 - 1 == 0) ∧ t.flag .n = true ∧
      t.flag .h = (s.slot x.2 &&& 0xF == 0) ∧
      (t.flag .h = true ↔ (BitVec.ofInt 8 ((s.slot x.2 &&& 0xF).toNat - 1)) &&& 0x10 ≠ 0) ∧
      t.flag .c = s.flag .c

/-- R176, R191 to R198: the 16-bit increments and decrements add or subtract 1 modulo 2^16 and write no flag. -/
def Obligations.IncrementDecrementWord : Prop :=
  (∀ s : State, ∀ x ∈ [(Instr.incBc, Pair.bc, (1 : Word)), (.incDe, .de, 1), (.incHl, .hl, 1), (.decBc, .bc, -1),
      (.decDe, .de, -1), (.decHl, .hl, -1)],
    ∃ t, exec x.1 s = .next t ∧ t = { s with regs := t.regs, pc := s.pc + 1 } ∧ t.pair x.2.1 = s.pair x.2.1 + x.2.2 ∧
      (∀ q, q ≠ x.2.1.hi → q ≠ x.2.1.lo → t.slot q = s.slot q) ∧ ∀ f, t.flag f = s.flag f) ∧
  (∀ s : State, exec .incSp s = .next { s with sp := s.sp + 1, pc := s.pc + 1 } ∧
    exec .decSp s = .next { s with sp := s.sp - 1, pc := s.pc + 1 })

/-- R173, R174, R199 to R207: SUB takes its source, when it can be read, from A modulo 2^8 and writes all four flags; A and F
are the only slots that change. -/
def Obligations.SubtractResult : Prop :=
  ∀ (s : State) (d : Byte), ∀ x ∈ [(Instr.subB, Source.slot .b, (1 : Word)), (.subC, .slot .c, 1), (.subD, .slot .d, 1),
      (.subE, .slot .e, 1), (.subH, .slot .h, 1), (.subL, .slot .l, 1), (.subMemHl, .memHl, 1), (.subA, .slot .a, 1),
      (.subD8 d, .imm d, 2)],
    x.2.1.readable s = true →
    ∃ t, exec x.1 s = .next t ∧ t = { x.2.1.after s with regs := t.regs, pc := s.pc + x.2.2 } ∧
      t.slot .a = s.slot .a - x.2.1.value s ∧ (∀ q, q ≠ .a → q ≠ .f → t.slot q = s.slot q) ∧
      t.flag .z = (s.slot .a - x.2.1.value s == 0) ∧ t.flag .n = true ∧
      t.flag .h = decide ((s.slot .a).toNat % 16 < (x.2.1.value s).toNat % 16) ∧
      t.flag .c = decide ((s.slot .a).toNat < (x.2.1.value s).toNat)

/-- R175 (whose reading of the flags is the spec's own decision D10), R174, R208 to R216: XOR combines its source, when it can
be read, into A and writes Z; N, H, C and every other slot are unchanged. -/
def Obligations.XorResult : Prop :=
  ∀ (s : State) (d : Byte), ∀ x ∈ [(Instr.xorB, Source.slot .b, (1 : Word)), (.xorC, .slot .c, 1), (.xorD, .slot .d, 1),
      (.xorE, .slot .e, 1), (.xorH, .slot .h, 1), (.xorL, .slot .l, 1), (.xorMemHl, .memHl, 1), (.xorA, .slot .a, 1),
      (.xorD8 d, .imm d, 2)],
    x.2.1.readable s = true →
    ∃ t, exec x.1 s = .next t ∧ t = { x.2.1.after s with regs := t.regs, pc := s.pc + x.2.2 } ∧
      t.slot .a = s.slot .a ^^^ x.2.1.value s ∧ (∀ q, q ≠ .a → q ≠ .f → t.slot q = s.slot q) ∧
      t.flag .z = (s.slot .a ^^^ x.2.1.value s == 0) ∧ t.flag .n = s.flag .n ∧ t.flag .h = s.flag .h ∧
      t.flag .c = s.flag .c

/-- R173, R174, R217 to R225: CP sets the flags SUB would set and writes no other slot; compare and subtract of the same source
set identical flags. Where an arbitrary collaborator answers the read of (HL) (R59), the read takes a free value, and that CP and
SUB take the same one is the model's choice (log 8): equal counters give equal free values. -/
def Obligations.CompareResult : Prop :=
  ∀ (s : State) (d : Byte), ∀ x ∈ [(Instr.cpB, Instr.subB, Source.slot .b, (1 : Word)), (.cpC, .subC, .slot .c, 1),
      (.cpD, .subD, .slot .d, 1), (.cpE, .subE, .slot .e, 1), (.cpH, .subH, .slot .h, 1), (.cpL, .subL, .slot .l, 1),
      (.cpMemHl, .subMemHl, .memHl, 1), (.cpA, .subA, .slot .a, 1), (.cpD8 d, .subD8 d, .imm d, 2)],
    x.2.2.1.readable s = true →
    ∃ t u, exec x.1 s = .next t ∧ exec x.2.1 s = .next u ∧
      t = { x.2.2.1.after s with regs := t.regs, pc := s.pc + x.2.2.2 } ∧ (∀ q, q ≠ .f → t.slot q = s.slot q) ∧
      u.slot .a = s.slot .a - x.2.2.1.value s ∧ (∀ f, t.flag f = u.flag f) ∧
      t.flag .z = (s.slot .a - x.2.2.1.value s == 0) ∧ t.flag .z = (s.slot .a == x.2.2.1.value s) ∧ t.flag .n = true ∧
      t.flag .h = decide ((s.slot .a).toNat % 16 < (x.2.2.1.value s).toNat % 16) ∧
      t.flag .c = decide ((s.slot .a).toNat < (x.2.2.1.value s).toNat)

/-- R230 to R238: RLA and RL r shift left through the old C; C becomes the old bit 7, Z follows the result, and N and H follow
`P_RL_NH`: free values, whatever they are (log 7, a choice of the model), unchanged or cleared. -/
def Obligations.RotateResult : Prop :=
  ∀ s : State, ∀ x ∈ [(Instr.rla, Slot.a, (1 : Word)), (.rlB, .b, 2), (.rlC, .c, 2), (.rlD, .d, 2), (.rlE, .e, 2),
      (.rlH, .h, 2), (.rlL, .l, 2), (.rlA, .a, 2)],
    ∃ t, exec x.1 s = .next t ∧ t = { s with regs := t.regs, pc := s.pc + x.2.2, draws := t.draws } ∧
      (t.slot x.2.1).toNat = (2 * (s.slot x.2.1).toNat) % 256 + (s.flag .c).toNat ∧
      (∀ q, q ≠ x.2.1 → q ≠ .f → t.slot q = s.slot q) ∧
      t.flag .c = decide (128 ≤ (s.slot x.2.1).toNat) ∧ t.flag .z = (t.slot x.2.1 == 0) ∧
      (s.config.rlNH = .draw →
        t.flag .n = Config.freeFlag s.draws ∧ t.flag .h = Config.freeFlag (s.draws + 1) ∧ t.draws = s.draws + 2) ∧
      (s.config.rlNH = .unchanged → t.flag .n = s.flag .n ∧ t.flag .h = s.flag .h ∧ t.draws = s.draws) ∧
      (s.config.rlNH = .cleared → t.flag .n = false ∧ t.flag .h = false ∧ t.draws = s.draws)

/-- R240: NOP has no effect but moving PC past it. -/
def Obligations.NoOperation : Prop :=
  ∀ s : State, exec .nop s = .next { s with pc := s.pc + 1 }

/-- R83, R84, R90: the PREFIX marker executes the secondary table's entry for its second byte, and raises IllegalOpcode with
was_special when there is none, PC after the two bytes and nothing else changed. The marker as a term is log 9; that it and RL r
take equal free values under `P_RL_NH` = Draw is the model's choice (log 7). -/
def Obligations.PrefixMarker : Prop :=
  (∀ s : State, ∀ x ∈ [((0x10 : Byte), Instr.rlB), (0x11, .rlC), (0x12, .rlD), (0x13, .rlE), (0x14, .rlH), (0x15, .rlL),
      (0x17, .rlA)], exec (.cbPrefix x.1) s = exec x.2 s) ∧
  (∀ (s : State) (b : Byte), (Instr.cbPrefix b).wf = true →
    exec (.cbPrefix b) s = .next (s.faultedAt 2 (.illegalOpcode b true)))

/-! ## Frames over all instructions -/

/-- R28: an instruction changes only the flags its rule writes. -/
def Obligations.FlagsChangedOnlyByTheirWriters : Prop :=
  ∀ (i : Instr) (s t : State) (f : Flag), exec i s = .next t → f ∉ flagsWritten i → t.flag f = s.flag f

/-- R29, R100 and the rules of 40_loads.md to 45_nop.md: an instruction changes only the slots its rule writes. -/
def Obligations.SlotsChangedOnlyByTheirWriters : Prop :=
  ∀ (i : Instr) (s t : State) (q : Slot), exec i s = .next t → q ∉ slotsWritten i → t.slot q = s.slot q

/-- R30: SP changes only by the instructions that write it, and not when a push or pop faults. -/
def Obligations.StackPointerChangedOnlyByItsWriters : Prop :=
  ∀ (i : Instr) (s t : State), exec i s = .next t →
    (writesSp i = false → t.sp = s.sp) ∧ (s.status = .running → t.status ≠ .running → t.sp = s.sp)

/-- R57, R63, R67: every byte of memory is unchanged except those at the addresses an instruction stores to, computed from the
registers as its meaning computes them; an instruction that stores nothing leaves every byte. -/
def Obligations.MemoryChangedOnlyWhereStored : Prop :=
  ∀ (i : Instr) (s t : State) (b : Word), exec i s = .next t → b ∉ storedAddresses s i → t.peek b = s.peek b

/-- R34, R54: no instruction changes the configuration. The model's own fields (log 7, 8, choices of the model) change only by
their users: no event is added unless an address stored to is delegated, and no free value is taken unless an address read from
is, or a rotate runs under `P_RL_NH` = Draw. -/
def Obligations.ConfigurationNeverChanges : Prop :=
  ∀ (i : Instr) (s t : State), exec i s = .next t →
    t.config = s.config ∧
    ((∀ b ∈ storedAddresses s i, s.delegated b = false) → t.ioOut = s.ioOut) ∧
    (s.config.io = .storage ∨ (∀ b ∈ readAddresses s i, s.delegated b = false) →
      t.draws = s.draws ∨ (s.config.rlNH = .draw ∧
        (i ∈ [Instr.rla, .rlB, .rlC, .rlD, .rlE, .rlH, .rlL, .rlA] ∨ ∃ b, i = .cbPrefix b ∧ hasSecondaryEntry b = true)))

/-- R32, R303: after an instruction that is no control transfer PC is the address of the next instruction, whether it completed
or faulted. -/
def Obligations.SequentialProgramCounter : Prop :=
  ∀ (i : Instr) (s t : State), exec i s = .next t →
    transfersControl i = false ∨ (s.status = .running ∧ t.status ≠ .running) →
    t.pc = s.pc + BitVec.ofNat 16 i.length

/-! ## Invariants and whole-machine rules -/

/-- The invariant holds after reset. -/
def Obligations.ResetSatisfiesInvariant : Prop := State.reset.Inv

/-- Every step keeps the invariant: memory in canonical form over mapped addresses (R53), the low nibble of F zero (R26), events
in the I/O block, none with plain storage (R59). -/
def Obligations.StepKeepsInvariant : Prop :=
  ∀ s t : State, s.Inv → step s = .next t → t.Inv

/-- R57, R332, R342: no step changes a byte that is not writable, neither an image's nor an unmapped address's, and no step
changes the map. -/
def Obligations.OnlyWritableBytesChange : Prop :=
  ∀ (s t : State) (a : Word), step s = .next t →
    t.config = s.config ∧ (s.writable a = false → t.peek a = s.peek a)

/-- R28, column "read by": only PUSH AF reads the flags N and H. Of two states that differ in N and H alone, every other
instruction makes states that differ in N and H at most. Where a read is delegated or a rotate runs under `P_RL_NH` = Draw, that
the two runs take equal free values is the model's choice (log 7, 8): equal counters give equal values. -/
def Obligations.SubtractAndHalfCarryReadOnlyByPush : Prop :=
  ∀ (i : Instr) (s u : State), i ≠ .pushAf → u = { s with regs := { s.regs with f := u.regs.f } } →
    u.flag .z = s.flag .z → u.flag .c = s.flag .c →
    ∃ t w, exec i s = .next t ∧ exec i u = .next w ∧ w = { t with regs := { t.regs with f := w.regs.f } } ∧
      w.flag .z = t.flag .z ∧ w.flag .c = t.flag .c

/-! ## Construction, the end of a run, the trace -/

/-- R36, R54, R332: a core is constructed exactly when the image has its region's size; every slot and flag is 0, SP and PC are
the entry values, the status is Running, and every region holds the supplied bytes. -/
def Obligations.ConstructedState : Prop :=
  ∀ p : Construction,
    ((State.construct p).isSome = true ↔
      p.image.length = (match p.config.mapMode with | .bootMap => 255 | .cartridgeMap => 16384)) ∧
    ∀ s, State.construct p = some s →
      (∀ q, s.slot q = 0) ∧ (∀ f, s.flag f = false) ∧ s.sp = p.entrySp ∧ s.pc = p.entryPc ∧ s.status = .running ∧
      s.config = p.config ∧ s.Inv ∧
      ∀ (a : Word) (r : Region), route p.config.mapMode a = some r →
        (r.storage = .readOnlyImage → p.image[a.toNat]? = some (s.peek a)) ∧
        (r.storage = .readWriteMemory → s.peek a = p.initRam a) ∧
        (r.storage = .ioDelegation → s.peek a = p.initIo (a.toNat - 0xFF00))

/-- R36, R333: the state after reset is the construction with the default entry values and `P_RL_NH`, and with the model's own
choices (log 2, 4, 5, 6) for what the spec leaves open: CartridgeMap, plain storage, and zero bytes. -/
def Obligations.ResetIsAConstruction : Prop :=
  State.construct
    { config := { mapMode := .cartridgeMap, io := .storage, rlNH := .draw }, image := List.replicate 16384 0, entryPc := 0,
      entrySp := 0, initRam := fun _ => 0, initIo := fun _ => 0 } = some State.reset

/-- R345 (the end of a run is the spec's own decision D21): at the end of a run a step changes no register, flag or memory byte;
with plain storage the state is a fixed point. -/
def Obligations.EndOfRunIsAFixedPoint : Prop :=
  ∀ s : State, s.atEnd → ∃ t, step s = .next t ∧ t = { s with draws := t.draws } ∧ (s.config.io = .storage → t = s)

/-- R91 (its placement is the spec's own decision D23; the event as a function of the state is log 12): the trace event carries
the address and the identity of the decoded operation, the secondary one after the prefix; a fetch or decode that raises emits
none. -/
def Obligations.TraceNamesDecodedOperation : Prop :=
  ∀ s : State, s.status = .running →
    (s.mapped s.pc = false → traceEvent s = none) ∧
    (s.mapped s.pc = true → illegalPrimary (s.codeByte 0) = true → traceEvent s = none) ∧
    (s.mapped s.pc = true → illegalPrimary (s.codeByte 0) = false → s.codeByte 0 ≠ 0xCB →
      traceEvent s = some { pc := s.pc, byte := s.codeByte 0, special := false }) ∧
    (s.mapped s.pc = true → s.codeByte 0 = 0xCB → s.mapped (s.pc + 1) = false → traceEvent s = none) ∧
    (s.mapped s.pc = true → s.codeByte 0 = 0xCB → s.mapped (s.pc + 1) = true →
      traceEvent s = if illegalSecondary (s.codeByte 1) then none
        else some { pc := s.pc, byte := s.codeByte 1, special := true })
end

