-- ==== Sys2Proof/Laws/State.lean ====
section
/-! SUPPORT. One lemma per field per update of the state: what each update leaves unchanged. -/

namespace Sys2Proof.Machine

/-! ### setSlot -/

@[simp] theorem State.setSlot_sp (s : State) (r : Slot) (v : Byte) : (s.setSlot r v).sp = s.sp := by cases r <;> rfl
@[simp] theorem State.setSlot_pc (s : State) (r : Slot) (v : Byte) : (s.setSlot r v).pc = s.pc := by cases r <;> rfl
@[simp] theorem State.setSlot_status (s : State) (r : Slot) (v : Byte) : (s.setSlot r v).status = s.status := by cases r <;> rfl
@[simp] theorem State.setSlot_config (s : State) (r : Slot) (v : Byte) : (s.setSlot r v).config = s.config := by cases r <;> rfl
@[simp] theorem State.setSlot_mem (s : State) (r : Slot) (v : Byte) : (s.setSlot r v).mem = s.mem := by cases r <;> rfl
@[simp] theorem State.setSlot_draws (s : State) (r : Slot) (v : Byte) : (s.setSlot r v).draws = s.draws := by cases r <;> rfl
@[simp] theorem State.setSlot_ioOut (s : State) (r : Slot) (v : Byte) : (s.setSlot r v).ioOut = s.ioOut := by cases r <;> rfl

/-! ### setPair -/

@[simp] theorem State.setPair_sp (s : State) (p : Pair) (v : Word) : (s.setPair p v).sp = s.sp := by simp [State.setPair]
@[simp] theorem State.setPair_pc (s : State) (p : Pair) (v : Word) : (s.setPair p v).pc = s.pc := by simp [State.setPair]
@[simp] theorem State.setPair_status (s : State) (p : Pair) (v : Word) : (s.setPair p v).status = s.status := by simp [State.setPair]
@[simp] theorem State.setPair_config (s : State) (p : Pair) (v : Word) : (s.setPair p v).config = s.config := by simp [State.setPair]
@[simp] theorem State.setPair_mem (s : State) (p : Pair) (v : Word) : (s.setPair p v).mem = s.mem := by simp [State.setPair]
@[simp] theorem State.setPair_draws (s : State) (p : Pair) (v : Word) : (s.setPair p v).draws = s.draws := by simp [State.setPair]
@[simp] theorem State.setPair_ioOut (s : State) (p : Pair) (v : Word) : (s.setPair p v).ioOut = s.ioOut := by simp [State.setPair]

/-! ### setSp -/

@[simp] theorem State.setSp_regs (s : State) (v : Word) : (s.setSp v).regs = s.regs := rfl
@[simp] theorem State.setSp_pc (s : State) (v : Word) : (s.setSp v).pc = s.pc := rfl
@[simp] theorem State.setSp_status (s : State) (v : Word) : (s.setSp v).status = s.status := rfl
@[simp] theorem State.setSp_config (s : State) (v : Word) : (s.setSp v).config = s.config := rfl
@[simp] theorem State.setSp_mem (s : State) (v : Word) : (s.setSp v).mem = s.mem := rfl
@[simp] theorem State.setSp_draws (s : State) (v : Word) : (s.setSp v).draws = s.draws := rfl
@[simp] theorem State.setSp_ioOut (s : State) (v : Word) : (s.setSp v).ioOut = s.ioOut := rfl
@[simp] theorem State.setSp_sp (s : State) (v : Word) : (s.setSp v).sp = v := rfl

/-! ### setPc -/

@[simp] theorem State.setPc_regs (s : State) (v : Word) : (s.setPc v).regs = s.regs := rfl
@[simp] theorem State.setPc_sp (s : State) (v : Word) : (s.setPc v).sp = s.sp := rfl
@[simp] theorem State.setPc_status (s : State) (v : Word) : (s.setPc v).status = s.status := rfl
@[simp] theorem State.setPc_config (s : State) (v : Word) : (s.setPc v).config = s.config := rfl
@[simp] theorem State.setPc_mem (s : State) (v : Word) : (s.setPc v).mem = s.mem := rfl
@[simp] theorem State.setPc_draws (s : State) (v : Word) : (s.setPc v).draws = s.draws := rfl
@[simp] theorem State.setPc_ioOut (s : State) (v : Word) : (s.setPc v).ioOut = s.ioOut := rfl
@[simp] theorem State.setPc_pc (s : State) (v : Word) : (s.setPc v).pc = v := rfl

/-! ### advance -/

@[simp] theorem State.advance_regs (s : State) (n : Word) : (s.advance n).regs = s.regs := rfl
@[simp] theorem State.advance_sp (s : State) (n : Word) : (s.advance n).sp = s.sp := rfl
@[simp] theorem State.advance_status (s : State) (n : Word) : (s.advance n).status = s.status := rfl
@[simp] theorem State.advance_config (s : State) (n : Word) : (s.advance n).config = s.config := rfl
@[simp] theorem State.advance_mem (s : State) (n : Word) : (s.advance n).mem = s.mem := rfl
@[simp] theorem State.advance_draws (s : State) (n : Word) : (s.advance n).draws = s.draws := rfl
@[simp] theorem State.advance_ioOut (s : State) (n : Word) : (s.advance n).ioOut = s.ioOut := rfl
@[simp] theorem State.advance_pc (s : State) (n : Word) : (s.advance n).pc = s.pc + n := rfl

/-! ### afterRead -/

@[simp] theorem State.afterRead_regs (s : State) (a : Word) : (s.afterRead a).regs = s.regs := by unfold State.afterRead; split <;> rfl
@[simp] theorem State.afterRead_sp (s : State) (a : Word) : (s.afterRead a).sp = s.sp := by unfold State.afterRead; split <;> rfl
@[simp] theorem State.afterRead_pc (s : State) (a : Word) : (s.afterRead a).pc = s.pc := by unfold State.afterRead; split <;> rfl
@[simp] theorem State.afterRead_status (s : State) (a : Word) : (s.afterRead a).status = s.status := by unfold State.afterRead; split <;> rfl
@[simp] theorem State.afterRead_config (s : State) (a : Word) : (s.afterRead a).config = s.config := by unfold State.afterRead; split <;> rfl
@[simp] theorem State.afterRead_mem (s : State) (a : Word) : (s.afterRead a).mem = s.mem := by unfold State.afterRead; split <;> rfl
@[simp] theorem State.afterRead_ioOut (s : State) (a : Word) : (s.afterRead a).ioOut = s.ioOut := by unfold State.afterRead; split <;> rfl

/-! ### store -/

@[simp] theorem State.store_regs (s : State) (a : Word) (v : Byte) : (s.store a v).regs = s.regs := by unfold State.store; split <;> rfl
@[simp] theorem State.store_sp (s : State) (a : Word) (v : Byte) : (s.store a v).sp = s.sp := by unfold State.store; split <;> rfl
@[simp] theorem State.store_pc (s : State) (a : Word) (v : Byte) : (s.store a v).pc = s.pc := by unfold State.store; split <;> rfl
@[simp] theorem State.store_status (s : State) (a : Word) (v : Byte) : (s.store a v).status = s.status := by unfold State.store; split <;> rfl
@[simp] theorem State.store_config (s : State) (a : Word) (v : Byte) : (s.store a v).config = s.config := by unfold State.store; split <;> rfl
@[simp] theorem State.store_draws (s : State) (a : Word) (v : Byte) : (s.store a v).draws = s.draws := by unfold State.store; split <;> rfl

/-! ### setFlag -/

@[simp] theorem State.setFlag_sp (s : State) (f : Flag) (on : Bool) : (s.setFlag f on).sp = s.sp := by simp [State.setFlag]
@[simp] theorem State.setFlag_pc (s : State) (f : Flag) (on : Bool) : (s.setFlag f on).pc = s.pc := by simp [State.setFlag]
@[simp] theorem State.setFlag_status (s : State) (f : Flag) (on : Bool) : (s.setFlag f on).status = s.status := by simp [State.setFlag]
@[simp] theorem State.setFlag_config (s : State) (f : Flag) (on : Bool) : (s.setFlag f on).config = s.config := by simp [State.setFlag]
@[simp] theorem State.setFlag_mem (s : State) (f : Flag) (on : Bool) : (s.setFlag f on).mem = s.mem := by simp [State.setFlag]
@[simp] theorem State.setFlag_draws (s : State) (f : Flag) (on : Bool) : (s.setFlag f on).draws = s.draws := by simp [State.setFlag]
@[simp] theorem State.setFlag_ioOut (s : State) (f : Flag) (on : Bool) : (s.setFlag f on).ioOut = s.ioOut := by simp [State.setFlag]

/-! ### drawFlag -/

@[simp] theorem State.drawFlag_sp (s : State) (f : Flag) : (s.drawFlag f).sp = s.sp := by simp [State.drawFlag]
@[simp] theorem State.drawFlag_pc (s : State) (f : Flag) : (s.drawFlag f).pc = s.pc := by simp [State.drawFlag]
@[simp] theorem State.drawFlag_status (s : State) (f : Flag) : (s.drawFlag f).status = s.status := by simp [State.drawFlag]
@[simp] theorem State.drawFlag_config (s : State) (f : Flag) : (s.drawFlag f).config = s.config := by simp [State.drawFlag]
@[simp] theorem State.drawFlag_mem (s : State) (f : Flag) : (s.drawFlag f).mem = s.mem := by simp [State.drawFlag]
@[simp] theorem State.drawFlag_ioOut (s : State) (f : Flag) : (s.drawFlag f).ioOut = s.ioOut := by simp [State.drawFlag]

/-! ### rotateNH -/

@[simp] theorem rotateNH_sp (s : State) : (rotateNH s).sp = s.sp := by unfold rotateNH; split <;> simp
@[simp] theorem rotateNH_pc (s : State) : (rotateNH s).pc = s.pc := by unfold rotateNH; split <;> simp
@[simp] theorem rotateNH_status (s : State) : (rotateNH s).status = s.status := by unfold rotateNH; split <;> simp
@[simp] theorem rotateNH_config (s : State) : (rotateNH s).config = s.config := by unfold rotateNH; split <;> simp
@[simp] theorem rotateNH_mem (s : State) : (rotateNH s).mem = s.mem := by unfold rotateNH; split <;> simp
@[simp] theorem rotateNH_ioOut (s : State) : (rotateNH s).ioOut = s.ioOut := by unfold rotateNH; split <;> simp

/-! ### enterFault -/

@[simp] theorem enterFault_regs (k : FaultKind) (start : Word) (s : State) : (enterFault k start s).regs = s.regs := rfl
@[simp] theorem enterFault_sp (k : FaultKind) (start : Word) (s : State) : (enterFault k start s).sp = s.sp := rfl
@[simp] theorem enterFault_pc (k : FaultKind) (start : Word) (s : State) : (enterFault k start s).pc = s.pc := rfl
@[simp] theorem enterFault_config (k : FaultKind) (start : Word) (s : State) : (enterFault k start s).config = s.config := rfl
@[simp] theorem enterFault_mem (k : FaultKind) (start : Word) (s : State) : (enterFault k start s).mem = s.mem := rfl
@[simp] theorem enterFault_draws (k : FaultKind) (start : Word) (s : State) : (enterFault k start s).draws = s.draws := rfl
@[simp] theorem enterFault_ioOut (k : FaultKind) (start : Word) (s : State) : (enterFault k start s).ioOut = s.ioOut := rfl
@[simp] theorem enterFault_status (k : FaultKind) (start : Word) (s : State) :
    (enterFault k start s).status = .faulted { kind := k, pcStart := start } := rfl

/-! ### What reads only the registers, the configuration or the memory -/

/-- A slot is a function of the register file. -/
theorem State.slot_congr {s t : State} (h : t.regs = s.regs) (r : Slot) : t.slot r = s.slot r := by
  cases r <;> simp [State.slot, h]

/-- A pair is a function of the register file. -/
theorem State.pair_congr {s t : State} (h : t.regs = s.regs) (p : Pair) : t.pair p = s.pair p := by
  simp [State.pair, State.slot_congr h]

/-- A flag is a function of the register file. -/
theorem State.flag_congr {s t : State} (h : t.regs = s.regs) (f : Flag) : t.flag f = s.flag f := by
  simp [State.flag, State.slot_congr h]

/-- What is mapped is a function of the configuration. -/
theorem State.mapped_congr {s t : State} (h : t.config = s.config) (a : Word) : t.mapped a = s.mapped a := by
  simp [State.mapped, h]

/-- What is writable is a function of the configuration. -/
theorem State.writable_congr {s t : State} (h : t.config = s.config) (a : Word) : t.writable a = s.writable a := by
  simp [State.writable, h]

/-- What is delegated is a function of the configuration. -/
theorem State.delegated_congr {s t : State} (h : t.config = s.config) (a : Word) : t.delegated a = s.delegated a := by
  simp [State.delegated, h]

/-- The model's read of one byte is a function of the memory. -/
theorem State.peek_congr {s t : State} (h : t.mem = s.mem) (a : Word) : t.peek a = s.peek a := by
  simp [State.peek, h]

/-- The byte a read returns is a function of the configuration, the memory and the free values taken. -/
theorem State.readValue_congr {s t : State} (hc : t.config = s.config) (hm : t.mem = s.mem) (hd : t.draws = s.draws) (a : Word) :
    t.readValue a = s.readValue a := by
  simp [State.readValue, State.delegated_congr hc, State.peek_congr hm, hd]

/-! ### Slots, pairs and flags after a write -/

/-- The slot written holds the value, F without its low nibble (10_state.md R26). -/
theorem State.slot_setSlot_self (s : State) (r : Slot) (v : Byte) :
    (s.setSlot r v).slot r = if r = .f then v &&& 0xF0 else v := by
  cases r <;> simp [State.setSlot, State.slot, BitVec.and_assoc]

/-- A write of one slot leaves every other slot. -/
theorem State.slot_setSlot_ne (s : State) {r q : Slot} (h : q ≠ r) (v : Byte) :
    (s.setSlot r v).slot q = s.slot q := by
  cases r <;> cases q <;> first | rfl | exact absurd rfl h

/-- A write of one slot, read at any slot. -/
theorem State.slot_setSlot (s : State) (r q : Slot) (v : Byte) :
    (s.setSlot r v).slot q = if q = r then (if r = .f then v &&& 0xF0 else v) else s.slot q := by
  by_cases h : q = r
  · subst h; simp [State.slot_setSlot_self]
  · simp [h, State.slot_setSlot_ne s h]

/-- A write of one slot changes the register file alone. -/
theorem State.setSlot_eq (s : State) (r : Slot) (v : Byte) :
    s.setSlot r v = { s with regs := (s.setSlot r v).regs } := by
  cases r <;> rfl

/-- A flag write changes F alone. -/
theorem State.slot_setFlag_ne (s : State) (f : Flag) (on : Bool) {q : Slot} (h : q ≠ .f) :
    (s.setFlag f on).slot q = s.slot q := State.slot_setSlot_ne s h _

/-- A slot write leaves the flags, unless the slot is F. -/
theorem State.flag_setSlot_ne (s : State) {r : Slot} (h : r ≠ .f) (v : Byte) (f : Flag) :
    (s.setSlot r v).flag f = s.flag f := by
  simp [State.flag, State.slot_setSlot_ne s (Ne.symm h)]

/-- A flag write, read at any flag (10_state.md R27). -/
theorem State.flag_setFlag (s : State) (f g : Flag) (on : Bool) :
    (s.setFlag f on).flag g = if g = f then on else s.flag g := by
  cases f <;> cases g <;> cases on <;>
    simp [State.flag, State.setFlag, State.setSlot, State.slot, Flag.bit]

/-- A pair write, read at any slot (10_state.md R23, R26). -/
theorem State.slot_setPair (s : State) (p : Pair) (v : Word) (q : Slot) :
    (s.setPair p v).slot q =
      if q = p.hi then hiByte v else if q = p.lo then (if p = .af then loByte v &&& 0xF0 else loByte v) else s.slot q := by
  cases p <;> cases q <;> simp [State.setPair, State.slot_setSlot, Pair.hi, Pair.lo]

/-- A pair write other than AF leaves the flags. -/
theorem State.flag_setPair_ne (s : State) {p : Pair} (h : p ≠ .af) (v : Word) (f : Flag) :
    (s.setPair p v).flag f = s.flag f := by
  cases p <;> first | exact absurd rfl h | simp [State.flag, State.slot_setPair, Pair.hi, Pair.lo]

/-- A free flag, read at any flag (00_scope.md R10). -/
theorem State.flag_drawFlag (s : State) (f g : Flag) :
    (s.drawFlag f).flag g = if g = f then Config.freeFlag s.draws else s.flag g := State.flag_setFlag s f g _

theorem State.drawFlag_draws (s : State) (f : Flag) : (s.drawFlag f).draws = s.draws + 1 := rfl

/-! ### Slots, pairs and flags after the other updates -/

@[simp] theorem State.slot_setSp (s : State) (v : Word) (q : Slot) : (s.setSp v).slot q = s.slot q :=
  State.slot_congr (State.setSp_regs s v) q
@[simp] theorem State.pair_setSp (s : State) (v : Word) (q : Pair) : (s.setSp v).pair q = s.pair q :=
  State.pair_congr (State.setSp_regs s v) q
@[simp] theorem State.flag_setSp (s : State) (v : Word) (g : Flag) : (s.setSp v).flag g = s.flag g :=
  State.flag_congr (State.setSp_regs s v) g
@[simp] theorem State.slot_setPc (s : State) (v : Word) (q : Slot) : (s.setPc v).slot q = s.slot q :=
  State.slot_congr (State.setPc_regs s v) q
@[simp] theorem State.pair_setPc (s : State) (v : Word) (q : Pair) : (s.setPc v).pair q = s.pair q :=
  State.pair_congr (State.setPc_regs s v) q
@[simp] theorem State.flag_setPc (s : State) (v : Word) (g : Flag) : (s.setPc v).flag g = s.flag g :=
  State.flag_congr (State.setPc_regs s v) g
@[simp] theorem State.slot_advance (s : State) (n : Word) (q : Slot) : (s.advance n).slot q = s.slot q :=
  State.slot_congr (State.advance_regs s n) q
@[simp] theorem State.pair_advance (s : State) (n : Word) (q : Pair) : (s.advance n).pair q = s.pair q :=
  State.pair_congr (State.advance_regs s n) q
@[simp] theorem State.flag_advance (s : State) (n : Word) (g : Flag) : (s.advance n).flag g = s.flag g :=
  State.flag_congr (State.advance_regs s n) g
@[simp] theorem State.slot_afterRead (s : State) (a : Word) (q : Slot) : (s.afterRead a).slot q = s.slot q :=
  State.slot_congr (State.afterRead_regs s a) q
@[simp] theorem State.pair_afterRead (s : State) (a : Word) (q : Pair) : (s.afterRead a).pair q = s.pair q :=
  State.pair_congr (State.afterRead_regs s a) q
@[simp] theorem State.flag_afterRead (s : State) (a : Word) (g : Flag) : (s.afterRead a).flag g = s.flag g :=
  State.flag_congr (State.afterRead_regs s a) g
@[simp] theorem State.slot_store (s : State) (a : Word) (v : Byte) (q : Slot) : (s.store a v).slot q = s.slot q :=
  State.slot_congr (State.store_regs s a v) q
@[simp] theorem State.pair_store (s : State) (a : Word) (v : Byte) (q : Pair) : (s.store a v).pair q = s.pair q :=
  State.pair_congr (State.store_regs s a v) q
@[simp] theorem State.flag_store (s : State) (a : Word) (v : Byte) (g : Flag) : (s.store a v).flag g = s.flag g :=
  State.flag_congr (State.store_regs s a v) g
@[simp] theorem slot_enterFault (k : FaultKind) (start : Word) (s : State) (q : Slot) : (enterFault k start s).slot q = s.slot q :=
  State.slot_congr (enterFault_regs k start s) q
@[simp] theorem pair_enterFault (k : FaultKind) (start : Word) (s : State) (q : Pair) : (enterFault k start s).pair q = s.pair q :=
  State.pair_congr (enterFault_regs k start s) q
@[simp] theorem flag_enterFault (k : FaultKind) (start : Word) (s : State) (g : Flag) : (enterFault k start s).flag g = s.flag g :=
  State.flag_congr (enterFault_regs k start s) g

/-! ### What is mapped, writable or delegated after an update -/

@[simp] theorem State.mapped_setSlot (s : State) (r : Slot) (v : Byte) (x : Word) : (s.setSlot r v).mapped x = s.mapped x :=
  State.mapped_congr (State.setSlot_config s r v) x
@[simp] theorem State.writable_setSlot (s : State) (r : Slot) (v : Byte) (x : Word) : (s.setSlot r v).writable x = s.writable x :=
  State.writable_congr (State.setSlot_config s r v) x
@[simp] theorem State.delegated_setSlot (s : State) (r : Slot) (v : Byte) (x : Word) : (s.setSlot r v).delegated x = s.delegated x :=
  State.delegated_congr (State.setSlot_config s r v) x
@[simp] theorem State.mapped_setPair (s : State) (p : Pair) (v : Word) (x : Word) : (s.setPair p v).mapped x = s.mapped x :=
  State.mapped_congr (State.setPair_config s p v) x
@[simp] theorem State.writable_setPair (s : State) (p : Pair) (v : Word) (x : Word) : (s.setPair p v).writable x = s.writable x :=
  State.writable_congr (State.setPair_config s p v) x
@[simp] theorem State.delegated_setPair (s : State) (p : Pair) (v : Word) (x : Word) : (s.setPair p v).delegated x = s.delegated x :=
  State.delegated_congr (State.setPair_config s p v) x
@[simp] theorem State.mapped_setSp (s : State) (v : Word) (x : Word) : (s.setSp v).mapped x = s.mapped x :=
  State.mapped_congr (State.setSp_config s v) x
@[simp] theorem State.writable_setSp (s : State) (v : Word) (x : Word) : (s.setSp v).writable x = s.writable x :=
  State.writable_congr (State.setSp_config s v) x
@[simp] theorem State.delegated_setSp (s : State) (v : Word) (x : Word) : (s.setSp v).delegated x = s.delegated x :=
  State.delegated_congr (State.setSp_config s v) x
@[simp] theorem State.mapped_setPc (s : State) (v : Word) (x : Word) : (s.setPc v).mapped x = s.mapped x :=
  State.mapped_congr (State.setPc_config s v) x
@[simp] theorem State.writable_setPc (s : State) (v : Word) (x : Word) : (s.setPc v).writable x = s.writable x :=
  State.writable_congr (State.setPc_config s v) x
@[simp] theorem State.delegated_setPc (s : State) (v : Word) (x : Word) : (s.setPc v).delegated x = s.delegated x :=
  State.delegated_congr (State.setPc_config s v) x
@[simp] theorem State.mapped_advance (s : State) (n : Word) (x : Word) : (s.advance n).mapped x = s.mapped x :=
  State.mapped_congr (State.advance_config s n) x
@[simp] theorem State.writable_advance (s : State) (n : Word) (x : Word) : (s.advance n).writable x = s.writable x :=
  State.writable_congr (State.advance_config s n) x
@[simp] theorem State.delegated_advance (s : State) (n : Word) (x : Word) : (s.advance n).delegated x = s.delegated x :=
  State.delegated_congr (State.advance_config s n) x
@[simp] theorem State.mapped_afterRead (s : State) (a : Word) (x : Word) : (s.afterRead a).mapped x = s.mapped x :=
  State.mapped_congr (State.afterRead_config s a) x
@[simp] theorem State.writable_afterRead (s : State) (a : Word) (x : Word) : (s.afterRead a).writable x = s.writable x :=
  State.writable_congr (State.afterRead_config s a) x
@[simp] theorem State.delegated_afterRead (s : State) (a : Word) (x : Word) : (s.afterRead a).delegated x = s.delegated x :=
  State.delegated_congr (State.afterRead_config s a) x
@[simp] theorem State.mapped_store (s : State) (a : Word) (v : Byte) (x : Word) : (s.store a v).mapped x = s.mapped x :=
  State.mapped_congr (State.store_config s a v) x
@[simp] theorem State.writable_store (s : State) (a : Word) (v : Byte) (x : Word) : (s.store a v).writable x = s.writable x :=
  State.writable_congr (State.store_config s a v) x
@[simp] theorem State.delegated_store (s : State) (a : Word) (v : Byte) (x : Word) : (s.store a v).delegated x = s.delegated x :=
  State.delegated_congr (State.store_config s a v) x
@[simp] theorem State.mapped_setFlag (s : State) (f : Flag) (on : Bool) (x : Word) : (s.setFlag f on).mapped x = s.mapped x :=
  State.mapped_congr (State.setFlag_config s f on) x
@[simp] theorem State.writable_setFlag (s : State) (f : Flag) (on : Bool) (x : Word) : (s.setFlag f on).writable x = s.writable x :=
  State.writable_congr (State.setFlag_config s f on) x
@[simp] theorem State.delegated_setFlag (s : State) (f : Flag) (on : Bool) (x : Word) : (s.setFlag f on).delegated x = s.delegated x :=
  State.delegated_congr (State.setFlag_config s f on) x
@[simp] theorem State.mapped_drawFlag (s : State) (f : Flag) (x : Word) : (s.drawFlag f).mapped x = s.mapped x :=
  State.mapped_congr (State.drawFlag_config s f) x
@[simp] theorem State.writable_drawFlag (s : State) (f : Flag) (x : Word) : (s.drawFlag f).writable x = s.writable x :=
  State.writable_congr (State.drawFlag_config s f) x
@[simp] theorem State.delegated_drawFlag (s : State) (f : Flag) (x : Word) : (s.drawFlag f).delegated x = s.delegated x :=
  State.delegated_congr (State.drawFlag_config s f) x
@[simp] theorem mapped_rotateNH (s : State) (x : Word) : (rotateNH s).mapped x = s.mapped x :=
  State.mapped_congr (rotateNH_config s) x
@[simp] theorem writable_rotateNH (s : State) (x : Word) : (rotateNH s).writable x = s.writable x :=
  State.writable_congr (rotateNH_config s) x
@[simp] theorem delegated_rotateNH (s : State) (x : Word) : (rotateNH s).delegated x = s.delegated x :=
  State.delegated_congr (rotateNH_config s) x
@[simp] theorem mapped_enterFault (k : FaultKind) (start : Word) (s : State) (x : Word) : (enterFault k start s).mapped x = s.mapped x :=
  State.mapped_congr (enterFault_config k start s) x
@[simp] theorem writable_enterFault (k : FaultKind) (start : Word) (s : State) (x : Word) : (enterFault k start s).writable x = s.writable x :=
  State.writable_congr (enterFault_config k start s) x
@[simp] theorem delegated_enterFault (k : FaultKind) (start : Word) (s : State) (x : Word) : (enterFault k start s).delegated x = s.delegated x :=
  State.delegated_congr (enterFault_config k start s) x

end Sys2Proof.Machine
end

