-- ==== Sys2Proof/Laws/Memory.lean ====
section
/-! SUPPORT. The laws of the memory list: read after write, the canonical form, and the memory of a construction. -/

namespace Sys2Proof.Machine

theorem Memory.get_filter_ne (m : Memory) (a b : Nat) (h : b ≠ a) :
    Memory.get (m.filter fun c => c.1 != a) b = Memory.get m b := by
  induction m with
  | nil => rfl
  | cons c m ih =>
    obtain ⟨k, w⟩ := c
    by_cases hk : k = a
    · subst hk; simp [Memory.get, ih, Ne.symm h]
    · simp [hk, Memory.get, ih]

theorem Memory.get_filter_self (m : Memory) (a : Nat) :
    Memory.get (m.filter fun c => c.1 != a) a = Memory.unlisted := by
  induction m with
  | nil => rfl
  | cons c m ih =>
    obtain ⟨k, w⟩ := c
    by_cases hk : k = a
    · subst hk; simpa using ih
    · simp [hk, Memory.get, ih]

theorem Memory.get_insert_self (m : Memory) (a : Nat) (v : Byte) (h : ∀ c ∈ m, c.1 ≠ a) :
    Memory.get (Memory.insert a v m) a = v := by
  induction m with
  | nil => simp [Memory.insert, Memory.get]
  | cons c m ih =>
    obtain ⟨k, w⟩ := c
    have hk : k ≠ a := h (k, w) (by simp)
    have ih := ih fun c hc => h c (by simp [hc])
    by_cases hlt : a < k <;> simp [Memory.insert, hlt, Memory.get, hk, ih]

theorem Memory.get_insert_ne (m : Memory) (a b : Nat) (v : Byte) (h : b ≠ a) :
    Memory.get (Memory.insert a v m) b = Memory.get m b := by
  induction m with
  | nil => simp [Memory.insert, Memory.get, Ne.symm h]
  | cons c m ih =>
    obtain ⟨k, w⟩ := c
    by_cases hlt : a < k <;> simp [Memory.insert, hlt, Memory.get, ih, Ne.symm h]

/-- A read after a write to the same address gives the byte written, in any list. -/
@[simp] theorem Memory.get_set_self (m : Memory) (a : Nat) (v : Byte) : (m.set a v).get a = v := by
  unfold Memory.set
  by_cases hv : v = Memory.unlisted
  · simp [hv, Memory.get_filter_self]
  · simp only [hv, if_false]
    exact Memory.get_insert_self _ _ _ (by simp)

/-- A write leaves every other address, in any list. -/
theorem Memory.get_set_ne (m : Memory) (a b : Nat) (v : Byte) (h : b ≠ a) : (m.set a v).get b = m.get b := by
  unfold Memory.set
  by_cases hv : v = Memory.unlisted
  · simp [hv, Memory.get_filter_ne _ _ _ h]
  · simp only [hv, if_false]
    rw [Memory.get_insert_ne _ _ _ _ h, Memory.get_filter_ne _ _ _ h]

/-- A write, read at any address. -/
theorem Memory.get_set (m : Memory) (a b : Nat) (v : Byte) : (m.set a v).get b = if b = a then v else m.get b := by
  by_cases h : b = a
  · subst h; simp
  · simp [h, Memory.get_set_ne _ _ _ _ h]

/-! ### The canonical form -/

/-- The canonical form, as a proposition. -/
theorem Memory.wf_iff (m : Memory) :
    m.wf = true ↔ (m.Pairwise fun c d => c.1 < d.1) ∧ ∀ c ∈ m, c.2 ≠ Memory.unlisted ∧ c.1 < 65536 := by
  simp [Memory.wf]

theorem Memory.mem_insert {m : Memory} {a : Nat} {v : Byte} {c : Host.Cell} :
    c ∈ Memory.insert a v m ↔ c = (a, v) ∨ c ∈ m := by
  induction m with
  | nil => simp [Memory.insert]
  | cons d m ih =>
    obtain ⟨k, w⟩ := d
    by_cases hlt : a < k
    · simp [Memory.insert, hlt]
    · simp [Memory.insert, hlt, ih]; tauto

theorem Memory.pairwise_insert {m : Memory} {a : Nat} {v : Byte} (h : m.Pairwise fun c d => c.1 < d.1)
    (hne : ∀ c ∈ m, c.1 ≠ a) : (Memory.insert a v m).Pairwise fun c d => c.1 < d.1 := by
  induction m with
  | nil => simp [Memory.insert]
  | cons d m ih =>
    obtain ⟨k, w⟩ := d
    rw [List.pairwise_cons] at h
    have hk : k ≠ a := hne (k, w) (by simp)
    by_cases hlt : a < k
    · simp only [Memory.insert, hlt, if_true, List.pairwise_cons]
      refine ⟨?_, h.1, h.2⟩
      intro c hc
      rcases List.mem_cons.1 hc with rfl | hc
      · exact hlt
      · exact hlt.trans (h.1 c hc)
    · simp only [Memory.insert, hlt, if_false, List.pairwise_cons]
      refine ⟨?_, ih h.2 fun c hc => hne c (by simp [hc])⟩
      intro c hc
      rcases Memory.mem_insert.1 hc with rfl | hc
      · simp only; omega
      · exact h.1 c hc

/-- What a write lists: the old entries of the other addresses, and the new one unless it reads as unlisted. -/
theorem Memory.mem_set {m : Memory} {a : Nat} {v : Byte} {c : Host.Cell} (h : c ∈ m.set a v) :
    (c = (a, v) ∧ v ≠ Memory.unlisted) ∨ (c ∈ m ∧ c.1 ≠ a) := by
  unfold Memory.set at h
  by_cases hv : v = Memory.unlisted
  · right; simpa [hv] using h
  · simp only [hv, if_false] at h
    rcases Memory.mem_insert.1 h with rfl | h
    · exact .inl ⟨rfl, hv⟩
    · right; simpa using h

/-- A write to an address of the bus keeps the canonical form. -/
theorem Memory.wf_set {m : Memory} (h : m.wf = true) {a : Nat} (ha : a < 65536) (v : Byte) : (m.set a v).wf = true := by
  rw [Memory.wf_iff] at h ⊢
  constructor
  · unfold Memory.set
    have hf : (m.filter fun c => c.1 != a).Pairwise fun c d => c.1 < d.1 := h.1.filter _
    by_cases hv : v = Memory.unlisted
    · simpa [hv] using hf
    · simp only [hv, if_false]
      exact Memory.pairwise_insert hf (by simp)
  · intro c hc
    rcases Memory.mem_set hc with ⟨rfl, hv⟩ | ⟨hc, _⟩
    · exact ⟨hv, ha⟩
    · exact h.2 c hc

/-- The memory of `State.reset` has the canonical form. -/
theorem State.reset_mem_wf : State.reset.mem.wf = true := by decide

/-- Placing an instruction's bytes keeps the canonical form. -/
theorem placeBytes_wf {m : Memory} (h : m.wf = true) (a : Word) (bs : List Byte) : (placeBytes a bs m).wf = true := by
  induction bs generalizing a m with
  | nil => exact h
  | cons b bs ih => exact ih (Memory.wf_set h a.isLt b) _

/-! ### The model's read of one byte -/

/-- Two addresses of the bus are the same key only when they are equal. -/
theorem toNat_ne {a b : Word} (h : a ≠ b) : a.toNat ≠ b.toNat := fun e => h (BitVec.eq_of_toNat_eq e)

/-- A write, read at any address: the byte stored, unless the arbitrary collaborator took it. -/
theorem State.peek_store (s : State) (a b : Word) (v : Byte) :
    (s.store a v).peek b = if s.delegated a = false ∧ b = a then v else s.peek b := by
  unfold State.store State.peek
  by_cases hd : s.delegated a
  · simp [hd]
  · by_cases hb : b = a
    · simp [hd, hb]
    · simp [hd, hb, Memory.get_set_ne _ _ _ _ (toNat_ne hb)]

/-! ### The memory of a construction -/

theorem Memory.get_append (m m' : Memory) (a : Nat) (h : ∀ c ∈ m, c.1 ≠ a) :
    Memory.get (m ++ m') a = Memory.get m' a := by
  induction m with
  | nil => rfl
  | cons c m ih =>
    obtain ⟨k, w⟩ := c
    have hk : k ≠ a := h (k, w) (by simp)
    simp [Memory.get, hk, ih fun c hc => h c (by simp [hc])]

theorem Memory.get_append_of_mem (m m' : Memory) (a : Nat) (h : ∃ c ∈ m, c.1 = a) :
    Memory.get (m ++ m') a = Memory.get m a := by
  induction m with
  | nil => simp at h
  | cons c m ih =>
    obtain ⟨k, w⟩ := c
    by_cases hk : k = a
    · simp [Memory.get, hk]
    · simp only [List.cons_append, Memory.get, hk, if_false]
      apply ih
      obtain ⟨c, hc, e⟩ := h
      rcases List.mem_cons.1 hc with rfl | hc
      · exact absurd e hk
      · exact ⟨c, hc, e⟩

theorem Memory.get_of_not_mem (m : Memory) (a : Nat) (h : ∀ c ∈ m, c.1 ≠ a) : Memory.get m a = Memory.unlisted := by
  induction m with
  | nil => rfl
  | cons c m ih =>
    obtain ⟨k, w⟩ := c
    have hk : k ≠ a := h (k, w) (by simp)
    simp [Memory.get, hk, ih fun c hc => h c (by simp [hc])]

theorem Construction.cell_fst {p : Construction} {a : Nat} {c : Host.Cell} (h : p.cell a = some c) : c.1 = a := by
  unfold Construction.cell at h
  split at h
  · cases h
  · cases h; rfl

theorem Construction.get_range (p : Construction) (n a : Nat) :
    Memory.get ((List.range n).filterMap p.cell) a = if a < n then p.initialByte a else Memory.unlisted := by
  induction n with
  | zero => rfl
  | succ n ih =>
    have hmem : ∀ c ∈ (List.range n).filterMap p.cell, c.1 < n := by
      intro c hc
      obtain ⟨k, hk, hc⟩ := List.mem_filterMap.1 hc
      rw [Construction.cell_fst hc]; exact List.mem_range.1 hk
    rw [List.range_succ, List.filterMap_append]
    by_cases hlt : a < n
    · by_cases hin : ∃ c ∈ (List.range n).filterMap p.cell, c.1 = a
      · rw [Memory.get_append_of_mem _ _ _ hin, ih]; simp [hlt, Nat.lt_succ_of_lt hlt]
      · have hno : ∀ c ∈ (List.range n).filterMap p.cell, c.1 ≠ a := fun c hc e => hin ⟨c, hc, e⟩
        rw [Memory.get_append _ _ _ hno]
        have h0 := Memory.get_of_not_mem _ _ hno
        rw [ih] at h0
        simp only [hlt, if_true] at h0
        rw [if_pos (Nat.lt_succ_of_lt hlt), h0]
        apply Memory.get_of_not_mem
        intro c hc
        obtain ⟨k, hk, hc⟩ := List.mem_filterMap.1 hc
        have := Construction.cell_fst hc
        have hk : k = n := by simpa using hk
        omega
    · have hno : ∀ c ∈ (List.range n).filterMap p.cell, c.1 ≠ a := by
        intro c hc e; have := hmem c hc; omega
      rw [Memory.get_append _ _ _ hno]
      by_cases hn : a = n
      · subst hn
        by_cases hv : p.initialByte a = Memory.unlisted
        · simp [Construction.cell, hv, Memory.get]
        · simp [Construction.cell, hv, Memory.get]
      · rw [if_neg (by omega)]
        apply Memory.get_of_not_mem
        intro c hc
        obtain ⟨k, hk, hc⟩ := List.mem_filterMap.1 hc
        have := Construction.cell_fst hc
        have hk : k = n := by simpa using hk
        omega

/-- After construction every address of the bus holds its initial byte. -/
theorem Construction.get_memory (p : Construction) (a : Nat) (h : a < 65536) : p.memory.get a = p.initialByte a := by
  unfold Construction.memory
  rw [Construction.get_range, if_pos h]

/-- A cell the construction lists is the cell of its address. -/
theorem Construction.cell_of_mem {p : Construction} {c : Host.Cell} (h : c ∈ p.memory) : p.cell c.1 = some c := by
  obtain ⟨k, _, hc⟩ := List.mem_filterMap.1 h
  rw [Construction.cell_fst hc]; exact hc

/-- The memory of a construction has the canonical form. -/
theorem Construction.memory_wf (p : Construction) : p.memory.wf = true := by
  rw [Memory.wf_iff]
  constructor
  · unfold Construction.memory
    rw [List.pairwise_filterMap]
    refine List.pairwise_lt_range.imp ?_
    intro a b hab c hc d hd
    rw [Construction.cell_fst hc, Construction.cell_fst hd]; exact hab
  · intro c hc
    obtain ⟨k, hk, hc⟩ := List.mem_filterMap.1 hc
    refine ⟨?_, by rw [Construction.cell_fst hc]; exact List.mem_range.1 hk⟩
    unfold Construction.cell at hc
    split at hc
    · cases hc
    · rename_i h; cases hc; exact h

end Sys2Proof.Machine
end

