-- ==== Sys2Proof/Laws/Router.lean ====
section
/-! SUPPORT. The laws of the address router (20_memory.md R52 to R59). -/

namespace Sys2Proof.Machine

/-- An address routes to a region of the table that covers it. -/
theorem route_mem {m : MapMode} {a : Word} {r : Region} (h : route m a = some r) :
    r ∈ regionTable m ∧ r.covers a = true :=
  ⟨List.mem_of_find?_eq_some h, by simpa using List.find?_some h⟩

/-- The regions of an address's answer, by the address alone. -/
theorem route_cases (m : MapMode) (a : Word) :
    route m a = some (imageRegion m) ∧ (imageRegion m).covers a = true ∨
    (imageRegion m).covers a = false ∧
      route m a = [
        { name := .video, base := 0x8000, size := 0x2000, storage := .readWriteMemory, writable := true },
        { name := .work, base := 0xC000, size := 0x2000, storage := .readWriteMemory, writable := true },
        { name := .io, base := 0xFF00, size := 0x004C, storage := .ioDelegation, writable := true },
        { name := .high, base := 0xFF80, size := 0x007F, storage := .readWriteMemory, writable := true }].find?
          (fun r => r.covers a) := by
  unfold route regionTable
  cases h : (imageRegion m).covers a
  · right; simp [List.find?_cons, h]
  · left; simp [h]

/-- A region that is not writable is the image. -/
theorem route_not_writable {m : MapMode} {a : Word} {r : Region} (h : route m a = some r) (hw : r.writable = false) :
    r = imageRegion m := by
  have hm := (route_mem h).1
  simp only [regionTable, List.mem_cons, List.not_mem_nil, or_false] at hm
  rcases hm with rfl | rfl | rfl | rfl | rfl <;> first | rfl | cases hw

/-- The image region is not writable. -/
theorem imageRegion_writable (m : MapMode) : (imageRegion m).writable = false := by cases m <;> rfl

/-- Only the I/O block delegates. -/
theorem delegated_range {s : State} {a : Word} (h : s.delegated a = true) :
    s.config.io = .arbitrary ∧ 0xFF00 ≤ a.toNat ∧ a.toNat ≤ 0xFF4B := by
  unfold State.delegated at h
  cases hr : route s.config.mapMode a with
  | none => simp [hr] at h
  | some r =>
    have hm := route_mem hr
    simp only [hr, Option.any_some, Bool.and_eq_true, beq_iff_eq] at h
    refine ⟨h.1, ?_⟩
    have hin := hm.1
    simp only [regionTable, List.mem_cons, List.not_mem_nil, or_false] at hin
    have hc := hm.2
    rcases hin with rfl | rfl | rfl | rfl | rfl
    · cases hmm : s.config.mapMode <;> simp [imageRegion, hmm] at h
    · cases h.2
    · cases h.2
    · simp [Region.covers] at hc; omega
    · cases h.2

/-- With plain storage nothing is delegated. -/
theorem delegated_storage {s : State} (h : s.config.io = .storage) (a : Word) : s.delegated a = false := by
  simp [State.delegated, h]

/-- A writable address is mapped. -/
theorem mapped_of_writable {s : State} {a : Word} (h : s.writable a = true) : s.mapped a = true := by
  unfold State.writable at h; unfold State.mapped
  cases hr : route s.config.mapMode a <;> simp [hr] at h ⊢

/-- A delegated address is writable. -/
theorem writable_of_delegated {s : State} {a : Word} (h : s.delegated a = true) : s.writable a = true := by
  unfold State.delegated at h; unfold State.writable
  cases hr : route s.config.mapMode a with
  | none => simp [hr] at h
  | some r =>
    simp only [hr, Option.any_some, Bool.and_eq_true, beq_iff_eq] at h
    have hin := (route_mem hr).1
    simp only [regionTable, List.mem_cons, List.not_mem_nil, or_false] at hin
    rcases hin with rfl | rfl | rfl | rfl | rfl <;> first | rfl | skip
    cases hmm : s.config.mapMode <;> simp [imageRegion, hmm] at h

/-- The top address of the bus is unmapped (20_memory.md R55). -/
theorem mapped_top (s : State) : s.mapped 0xFFFF = false := by
  unfold State.mapped; cases s.config.mapMode <;> decide

/-- The first address of the bus is an image byte (20_memory.md R53). -/
theorem mapped_zero (s : State) : s.mapped 0 = true := by
  unfold State.mapped; cases s.config.mapMode <;> decide

end Sys2Proof.Machine
end

