-- ==== Sys2Proof/Laws/Ops.lean ====
section
/-! SUPPORT. One law per shared operation: what it answers, and what it leaves unchanged. -/

namespace Sys2Proof.Machine

/-! ### What an operation leaves -/

/-- The state a sequence of sub-steps leaves, whether it completes or raises. -/
def Result.state {α : Type} : Result α → State
  | .ok _ s => s
  | .raise _ s => s

/-- The state an instruction leaves: its sub-steps' state, with the fault taken when they raised one. -/
def Result.final (start : Word) : Result Unit → State
  | .ok _ s => s
  | .raise k s => enterFault k start s

@[simp] theorem Result.state_ok {α : Type} (v : α) (s : State) : (Result.ok v s).state = s := rfl
@[simp] theorem Result.state_raise {α : Type} (k : FaultKind) (s : State) : (Result.raise k s : Result α).state = s := rfl
@[simp] theorem Result.bind_ok {α β : Type} (v : α) (s : State) (k : α → State → Result β) :
    (Result.ok v s).bind k = k v s := rfl
@[simp] theorem Result.bind_raise {α β : Type} (f : FaultKind) (s : State) (k : α → State → Result β) :
    (Result.raise f s).bind k = .raise f s := rfl
@[simp] theorem Result.final_ok (start : Word) (s : State) : (Result.ok () s).final start = s := rfl
@[simp] theorem Result.final_raise (start : Word) (k : FaultKind) (s : State) :
    (Result.raise k s).final start = enterFault k start s := rfl

/-- An instruction always has a next state. -/
theorem Result.finish_eq (start : Word) (r : Result Unit) : r.finish start = .next (r.final start) := by
  cases r <;> rfl

/-- The next state of an instruction. -/
theorem perform_eq (len : Word) (body : State → Result Unit) (s : State) :
    perform len body s = .next ((body (s.advance len)).final s.pc) := Result.finish_eq _ _

/-- Whatever taking a fault leaves, an instruction leaves. -/
theorem Result.final_preserves {β : Type} {g : State → β} (hg : ∀ k a u, g (enterFault k a u) = g u) (start : Word)
    (r : Result Unit) : g (r.final start) = g r.state := by
  cases r <;> simp [Result.final, Result.state, hg]

/-- An instruction whose sub-steps leave `g` alone leaves it alone. -/
theorem perform_preserves {β : Type} {g : State → β} {len : Word} {body : State → Result Unit} {s t : State}
    (h : perform len body s = .next t) (hg : ∀ k a u, g (enterFault k a u) = g u)
    (hb : g (body (s.advance len)).state = g (s.advance len)) : g t = g (s.advance len) := by
  rw [perform_eq] at h
  injection h with h
  rw [← h, Result.final_preserves hg, hb]

/-- A sequence leaves what its parts leave. -/
theorem Result.bind_preserves {α β γ : Type} {g : State → γ} {r : Result α} {k : α → State → Result β}
    (hk : ∀ v u, g (k v u).state = g u) : g (r.bind k).state = g r.state := by
  cases r
  · exact hk _ _
  · rfl

/-! ### Reads -/

/-- Where no arbitrary collaborator answers, a read leaves the state as it was (20_memory.md R69). -/
theorem State.afterRead_of_not_delegated {s : State} {a : Word} (h : s.delegated a = false) : s.afterRead a = s := by
  simp [State.afterRead, h]

/-- Where no arbitrary collaborator answers, a read returns the stored byte (20_memory.md R56, R58). -/
theorem State.readValue_of_not_delegated {s : State} {a : Word} (h : s.delegated a = false) : s.readValue a = s.peek a := by
  simp [State.readValue, h]

theorem readByte_ok {s : State} {a : Word} (h : s.mapped a = true) :
    readByte a s = .ok (s.readValue a) (s.afterRead a) := by simp [readByte, h]

theorem readByte_raise {s : State} {a : Word} (h : s.mapped a = false) :
    readByte a s = .raise (.unmappedAddress a) s := by simp [readByte, h]

theorem readWord_ok {s : State} {a : Word} (h : s.mapped a = true) (h1 : s.mapped (a + 1) = true) :
    readWord a s = .ok (cat ((s.afterRead a).readValue (a + 1)) (s.readValue a)) ((s.afterRead a).afterRead (a + 1)) := by
  simp only [readWord, Result.bind_ok, readByte_ok h, readByte_ok (s := s.afterRead a) (a := a + 1) (by simpa using h1)]

theorem readWord_raise_first {s : State} {a : Word} (h : s.mapped a = false) :
    readWord a s = .raise (.unmappedAddress a) s := by simp only [readWord, Result.bind_raise, readByte_raise h]

theorem readWord_raise_second {s : State} {a : Word} (h : s.mapped a = true) (h1 : s.mapped (a + 1) = false) :
    readWord a s = .raise (.unmappedAddress (a + 1)) (s.afterRead a) := by
  simp only [readWord, Result.bind_ok, Result.bind_raise, readByte_ok h, readByte_raise (s := s.afterRead a) (a := a + 1) (by simpa using h1)]

theorem readByte_preserves {β : Type} {g : State → β} (h : ∀ u a, g (u.afterRead a) = g u) (a : Word) (s : State) :
    g (readByte a s).state = g s := by
  unfold readByte; split <;> simp [h]

theorem readWord_preserves {β : Type} {g : State → β} (h : ∀ u a, g (u.afterRead a) = g u) (a : Word) (s : State) :
    g (readWord a s).state = g s := by
  unfold readWord
  rw [Result.bind_preserves (g := g), readByte_preserves h]
  intro v u
  rw [Result.bind_preserves (g := g), readByte_preserves h]
  intro w x; rfl

theorem pop_preserves {β : Type} {g : State → β} (h : ∀ u a, g (u.afterRead a) = g u) (hsp : ∀ u v, g (u.setSp v) = g u)
    (s : State) : g (pop s).state = g s := by
  unfold pop
  rw [Result.bind_preserves (g := g), readWord_preserves h]
  intro v u; simp [hsp]

/-! ### Writes -/

theorem writeByte_ok {s : State} {a : Word} (h : s.writable a = true) (v : Byte) :
    writeByte a v s = .ok () (s.store a v) := by
  unfold State.writable at h; unfold writeByte
  cases hr : route s.config.mapMode a with
  | none => simp [hr] at h
  | some r => rw [hr] at h; simp only [Option.any_some] at h; simp [h]

theorem writeByte_raise {s : State} {a : Word} (h : s.writable a = false) (v : Byte) :
    writeByte a v s = .raise (s.writeFault a) s := by
  unfold State.writable at h; unfold writeByte State.writeFault State.mapped
  cases hr : route s.config.mapMode a with
  | none => simp
  | some r => rw [hr] at h; simp only [Option.any_some] at h; simp [h]

theorem writeWord_ok {s : State} {a : Word} (h : s.writable a = true) (h1 : s.writable (a + 1) = true) (v : Word) :
    writeWord a v s = .ok () ((s.store a (loByte v)).store (a + 1) (hiByte v)) := by
  simp only [writeWord, Result.bind_ok, writeByte_ok h, writeByte_ok (s := s.store a (loByte v)) (a := a + 1) (by simpa using h1)]

theorem writeWord_raise_first {s : State} {a : Word} (h : s.writable a = false) (v : Word) :
    writeWord a v s = .raise (s.writeFault a) s := by simp only [writeWord, Result.bind_raise, writeByte_raise h]

theorem State.writeFault_store (s : State) (a : Word) (v : Byte) (x : Word) :
    (s.store a v).writeFault x = s.writeFault x := by simp [State.writeFault]

theorem writeWord_raise_second {s : State} {a : Word} (h : s.writable a = true) (h1 : s.writable (a + 1) = false) (v : Word) :
    writeWord a v s = .raise (s.writeFault (a + 1)) (s.store a (loByte v)) := by
  simp only [writeWord, Result.bind_ok, writeByte_ok h, writeByte_raise (s := s.store a (loByte v)) (a := a + 1) (by simpa using h1),
    State.writeFault_store]

/-- A byte write leaves what a store at its address leaves. -/
theorem writeByte_preserves {β : Type} {g : State → β} {a : Word} {v : Byte} {s : State} (h : g (s.store a v) = g s) :
    g (writeByte a v s).state = g s := by
  cases hw : s.writable a
  · simp [writeByte_raise hw]
  · simp [writeByte_ok hw, h]

/-- A word write leaves what stores at its two addresses leave. -/
theorem writeWord_preserves {β : Type} {g : State → β} {a : Word} {v : Word} {s : State}
    (h : ∀ u x w, x = a ∨ x = a + 1 → g (u.store x w) = g u) : g (writeWord a v s).state = g s := by
  unfold writeWord
  rw [Result.bind_preserves (g := g), writeByte_preserves (h _ _ _ (.inl rfl))]
  intro _ u
  exact writeByte_preserves (h _ _ _ (.inr rfl))

theorem sub_one_add_one (a : Word) : a - 1 + 1 = a := by bv_omega

/-- A push leaves what stores at sp-1 and sp and a write of SP leave. -/
theorem push_preserves {β : Type} {g : State → β} {v : Word} {s : State}
    (h : ∀ u x w, x = s.sp - 1 ∨ x = s.sp → g (u.store x w) = g u) (hsp : ∀ u w, g (u.setSp w) = g u) :
    g (push v s).state = g s := by
  unfold push
  rw [Result.bind_preserves (g := g), writeWord_preserves (g := g)]
  · intro u x w hx; rw [sub_one_add_one] at hx; exact h u x w hx
  · intro _ u; simp [hsp]

theorem push_ok {s : State} (h : s.writable (s.sp - 1) = true) (h1 : s.writable s.sp = true) (v : Word) :
    push v s = .ok () (((s.store (s.sp - 1) (loByte v)).store s.sp (hiByte v)).setSp (s.sp - 2)) := by
  have hw := writeWord_ok (s := s) (a := s.sp - 1) h (by rw [sub_one_add_one]; exact h1) v
  rw [sub_one_add_one] at hw
  simp only [push, hw, Result.bind_ok, State.store_sp]

theorem push_raise_first {s : State} (h : s.writable (s.sp - 1) = false) (v : Word) :
    push v s = .raise (s.writeFault (s.sp - 1)) s := by simp only [push, Result.bind_raise, writeWord_raise_first h]

theorem push_raise_second {s : State} (h : s.writable (s.sp - 1) = true) (h1 : s.writable s.sp = false) (v : Word) :
    push v s = .raise (s.writeFault s.sp) (s.store (s.sp - 1) (loByte v)) := by
  have hw := writeWord_raise_second (s := s) (a := s.sp - 1) h (by rw [sub_one_add_one]; exact h1) v
  rw [sub_one_add_one] at hw
  simp only [push, hw, Result.bind_raise]

theorem add_one_add_one (a : Word) : a + 1 + 1 = a + 2 := by bv_omega

theorem pop_ok {s : State} (h : s.mapped (s.sp + 1) = true) (h1 : s.mapped (s.sp + 2) = true) :
    pop s = .ok (cat ((s.afterRead (s.sp + 1)).readValue (s.sp + 2)) (s.readValue (s.sp + 1)))
      (((s.afterRead (s.sp + 1)).afterRead (s.sp + 2)).setSp (s.sp + 2)) := by
  have hr := readWord_ok (s := s) (a := s.sp + 1) h (by rw [add_one_add_one]; exact h1)
  rw [add_one_add_one] at hr
  simp only [pop, hr, Result.bind_ok, State.afterRead_sp]

theorem pop_raise_first {s : State} (h : s.mapped (s.sp + 1) = false) :
    pop s = .raise (.unmappedAddress (s.sp + 1)) s := by simp only [pop, Result.bind_raise, readWord_raise_first h]

theorem pop_raise_second {s : State} (h : s.mapped (s.sp + 1) = true) (h1 : s.mapped (s.sp + 2) = false) :
    pop s = .raise (.unmappedAddress (s.sp + 2)) (s.afterRead (s.sp + 1)) := by
  have hr := readWord_raise_second (s := s) (a := s.sp + 1) h (by rw [add_one_add_one]; exact h1)
  rw [add_one_add_one] at hr
  simp only [pop, hr, Result.bind_raise]

/-! ### Bodies of instructions -/

theorem MemOperand.post_preserves {β : Type} {g : State → β} (hp : ∀ u v, g (u.setPair .hl v) = g u) (m : MemOperand) (t : Word)
    (s : State) : g (m.post t s) = g s := by cases m <;> simp [MemOperand.post, hp]

/-- A store to a writable address completes (40_loads.md R112 to R115, R127 to R134, R136). -/
theorem storeSlot_ok {m : MemOperand} {s : State} (r : Slot) (h : s.writable (m.address s) = true) :
    storeSlot m r s = .ok () (m.post (m.address s) (s.store (m.address s) (s.slot r))) := by
  simp only [storeSlot, writeByte_ok h, Result.bind_ok]

/-- A store to any other address raises, and HL does not move (60_exceptions.md R303). -/
theorem storeSlot_raise {m : MemOperand} {s : State} (r : Slot) (h : s.writable (m.address s) = false) :
    storeSlot m r s = .raise (s.writeFault (m.address s)) s := by
  simp only [storeSlot, writeByte_raise h, Result.bind_raise]

/-- A load from a mapped address completes (40_loads.md R116 to R126, R135, R137). -/
theorem loadSlot_ok {m : MemOperand} {s : State} (r : Slot) (h : s.mapped (m.address s) = true) :
    loadSlot r m s =
      .ok () (m.post (m.address s) ((s.afterRead (m.address s)).setSlot r (s.readValue (m.address s)))) := by
  simp only [loadSlot, readByte_ok h, Result.bind_ok]

/-- A load from any other address raises (60_exceptions.md R303). -/
theorem loadSlot_raise {m : MemOperand} {s : State} (r : Slot) (h : s.mapped (m.address s) = false) :
    loadSlot r m s = .raise (.unmappedAddress (m.address s)) s := by
  simp only [loadSlot, readByte_raise h, Result.bind_raise]

/-- The half-carry of a subtraction, as numbers (43_arithmetic.md R173). -/
theorem and_low_lt (a b : Byte) : (a &&& 0xF) < (b &&& 0xF) ↔ a.toNat % 16 < b.toNat % 16 := by
  have low : ∀ v : Byte, (v &&& 0xF).toNat = v.toNat % 16 := by decide
  rw [BitVec.lt_def, low, low]

/-- A store leaves what a store at its address and a write of HL leave. -/
theorem storeSlot_preserves {β : Type} {g : State → β} {m : MemOperand} {r : Slot} {s : State}
    (h : ∀ u w, g (u.store (m.address s) w) = g u) (hp : ∀ u t, g (m.post t u) = g u) :
    g (storeSlot m r s).state = g s := by
  unfold storeSlot
  simp only
  rw [Result.bind_preserves (g := g), writeByte_preserves (h _ _)]
  intro _ u; simp [hp]

/-- A load leaves what a read, a write of its slot and a write of HL leave. -/
theorem loadSlot_preserves {β : Type} {g : State → β} {m : MemOperand} {r : Slot} {s : State}
    (h : ∀ u a, g (u.afterRead a) = g u) (hr : ∀ u v, g (u.setSlot r v) = g u) (hp : ∀ u t, g (m.post t u) = g u) :
    g (loadSlot r m s).state = g s := by
  unfold loadSlot
  simp only
  rw [Result.bind_preserves (g := g), readByte_preserves h]
  intro v u; simp [hp, hr]

theorem WordOperand.set_preserves {β : Type} {g : State → β} {w : WordOperand} (hp : ∀ u p v, w = .pair p → g (u.setPair p v) = g u)
    (hsp : ∀ u v, w = .sp → g (u.setSp v) = g u) (v : Word) (s : State) : g (w.set v s) = g s := by
  cases w <;> simp [WordOperand.set, hp, hsp]

theorem Source.read_ok {x : Source} {s : State} (h : x.readable s = true) : x.read s = .ok (x.value s) (x.after s) := by
  cases x
  · rfl
  · exact readByte_ok h
  · rfl

theorem Source.read_raise {x : Source} {s : State} (h : x.readable s = false) :
    x.read s = .raise (.unmappedAddress (s.pair .hl)) s := by
  cases x
  · cases h
  · exact readByte_raise h
  · cases h

theorem Source.read_preserves {β : Type} {g : State → β} (h : ∀ u a, g (u.afterRead a) = g u) (x : Source) (s : State) :
    g (x.read s).state = g s := by
  cases x
  · rfl
  · exact readByte_preserves h _ _
  · rfl

theorem rotateNH_preserves {β : Type} {g : State → β} (hf : ∀ u f v, g (u.setFlag f v) = g u)
    (hd : ∀ u f, g (u.drawFlag f) = g u) (s : State) : g (rotateNH s) = g s := by
  unfold rotateNH; split <;> simp [hf, hd]

theorem rotateSlot_preserves {β : Type} {g : State → β} {r : Slot} (hf : ∀ u f v, g (u.setFlag f v) = g u)
    (hd : ∀ u f, g (u.drawFlag f) = g u) (hr : ∀ u v, g (u.setSlot r v) = g u) (s : State) :
    g (rotateSlot r s).state = g s := by
  unfold rotateSlot shiftLeft
  simp [hr, rotateNH_preserves hf hd, hf]

theorem incSlot_preserves {β : Type} {g : State → β} {r : Slot} (hf : ∀ u v, g (u.setFlag .z v) = g u)
    (hn : ∀ u v, g (u.setFlag .n v) = g u) (hh : ∀ u v, g (u.setFlag .h v) = g u) (hr : ∀ u v, g (u.setSlot r v) = g u)
    (s : State) : g (incSlot r s).state = g s := by
  simp [incSlot, incByte, hr, hf, hn, hh]

theorem decSlot_preserves {β : Type} {g : State → β} {r : Slot} (hf : ∀ u v, g (u.setFlag .z v) = g u)
    (hn : ∀ u v, g (u.setFlag .n v) = g u) (hh : ∀ u v, g (u.setFlag .h v) = g u) (hr : ∀ u v, g (u.setSlot r v) = g u)
    (s : State) : g (decSlot r s).state = g s := by
  simp [decSlot, decByte, hr, hf, hn, hh]

theorem subFromA_preserves {β : Type} {g : State → β} (h : ∀ u a, g (u.afterRead a) = g u)
    (hf : ∀ u f v, g (u.setFlag f v) = g u) (hr : ∀ u v, g (u.setSlot .a v) = g u) (x : Source) (s : State) :
    g (subFromA x s).state = g s := by
  unfold subFromA
  rw [Result.bind_preserves (g := g), Source.read_preserves h]
  intro v u; simp [subtract, hr, hf]

theorem xorIntoA_preserves {β : Type} {g : State → β} (h : ∀ u a, g (u.afterRead a) = g u)
    (hf : ∀ u v, g (u.setFlag .z v) = g u) (hr : ∀ u v, g (u.setSlot .a v) = g u) (x : Source) (s : State) :
    g (xorIntoA x s).state = g s := by
  unfold xorIntoA
  rw [Result.bind_preserves (g := g), Source.read_preserves h]
  intro v u; simp [exclusiveOr, hr, hf]

theorem compareA_preserves {β : Type} {g : State → β} (h : ∀ u a, g (u.afterRead a) = g u)
    (hf : ∀ u f v, g (u.setFlag f v) = g u) (x : Source) (s : State) : g (compareA x s).state = g s := by
  unfold compareA
  rw [Result.bind_preserves (g := g), Source.read_preserves h]
  intro v u; simp [subtract, hf]

theorem jumpRelative_preserves {β : Type} {g : State → β} (h : ∀ u n, g (u.advance n) = g u) (k : Cond) (o : Byte) (s : State) :
    g (jumpRelative k o s).state = g s := by
  unfold jumpRelative; simp only [Result.state_ok]; split <;> simp [h]

theorem jumpAbsolute_preserves {β : Type} {g : State → β} (h : ∀ u n, g (u.setPc n) = g u) (k : Cond) (t : Word) (s : State) :
    g (jumpAbsolute k t s).state = g s := by
  unfold jumpAbsolute; simp only [Result.state_ok]; split <;> simp [h]

theorem callTo_preserves {β : Type} {g : State → β} {s : State} (h : ∀ u x w, x = s.sp - 1 ∨ x = s.sp → g (u.store x w) = g u)
    (hsp : ∀ u w, g (u.setSp w) = g u) (hpc : ∀ u w, g (u.setPc w) = g u) (t : Word) : g (callTo t s).state = g s := by
  unfold callTo
  rw [Result.bind_preserves (g := g), push_preserves h hsp]
  intro _ u; simp [hpc]

theorem returnToCaller_preserves {β : Type} {g : State → β} (h : ∀ u a, g (u.afterRead a) = g u)
    (hsp : ∀ u w, g (u.setSp w) = g u) (hpc : ∀ u w, g (u.setPc w) = g u) (s : State) :
    g (returnToCaller s).state = g s := by
  unfold returnToCaller
  rw [Result.bind_preserves (g := g), pop_preserves h hsp]
  intro v u; simp [hpc]

theorem pushPair_preserves {β : Type} {g : State → β} {s : State} (h : ∀ u x w, x = s.sp - 1 ∨ x = s.sp → g (u.store x w) = g u)
    (hsp : ∀ u w, g (u.setSp w) = g u) (p : Pair) : g (pushPair p s).state = g s := push_preserves h hsp

theorem popPair_preserves {β : Type} {g : State → β} {p : Pair} (h : ∀ u a, g (u.afterRead a) = g u)
    (hsp : ∀ u w, g (u.setSp w) = g u) (hp : ∀ u v, g (u.setPair p v) = g u) (s : State) :
    g (popPair p s).state = g s := by
  unfold popPair
  rw [Result.bind_preserves (g := g), pop_preserves h hsp]
  intro v u; simp [hp]

theorem escapeTo_preserves {β : Type} {g : State → β} {b : Byte}
    (h : ∀ r, rotateRegister b = some r → ∀ u, g (rotateSlot r u).state = g u) (s : State) : g (escapeTo b s).state = g s := by
  unfold escapeTo
  split
  · rename_i r hr; exact h r hr s
  · rfl

end Sys2Proof.Machine
end

