-- ==== Sys2Proof/Laws/Body.lean ====
section
/-! SUPPORT. Every instruction is one `perform` of its length and its sub-steps, and so always has a next state. -/

namespace Sys2Proof.Machine

/-- The sub-steps of an instruction after PC has moved past its bytes. -/
def bodyOf : Instr → State → Result Unit
  | .nop => fun s1 => .ok () s1
  | .ldBcD16 v => loadWord (.pair .bc) v
  | .ldMemBcA => storeSlot .bc .a
  | .incBc => incWord (.pair .bc)
  | .incB => incSlot .b
  | .decB => decSlot .b
  | .ldBD8 d => loadByte .b d
  | .ldAMemBc => loadSlot .a .bc
  | .decBc => decWord (.pair .bc)
  | .incC => incSlot .c
  | .decC => decSlot .c
  | .ldCD8 d => loadByte .c d
  | .ldDeD16 v => loadWord (.pair .de) v
  | .ldMemDeA => storeSlot .de .a
  | .incDe => incWord (.pair .de)
  | .incD => incSlot .d
  | .decD => decSlot .d
  | .ldDD8 d => loadByte .d d
  | .rla => rotateSlot .a
  | .jr o => jumpRelative .always o
  | .ldAMemDe => loadSlot .a .de
  | .decDe => decWord (.pair .de)
  | .incE => incSlot .e
  | .decE => decSlot .e
  | .ldED8 d => loadByte .e d
  | .jrNz o => jumpRelative .nz o
  | .ldHlD16 v => loadWord (.pair .hl) v
  | .ldMemHlIncA => storeSlot .hlInc .a
  | .incHl => incWord (.pair .hl)
  | .incH => incSlot .h
  | .decH => decSlot .h
  | .ldHD8 d => loadByte .h d
  | .jrZ o => jumpRelative .z o
  | .ldAMemHlInc => loadSlot .a .hlInc
  | .decHl => decWord (.pair .hl)
  | .incL => incSlot .l
  | .decL => decSlot .l
  | .ldLD8 d => loadByte .l d
  | .jrNc o => jumpRelative .nc o
  | .ldSpD16 v => loadWord .sp v
  | .ldMemHlDecA => storeSlot .hlDec .a
  | .incSp => incWord .sp
  | .jrC o => jumpRelative .c o
  | .ldAMemHlDec => loadSlot .a .hlDec
  | .decSp => decWord .sp
  | .incA => incSlot .a
  | .decA => decSlot .a
  | .ldAD8 d => loadByte .a d
  | .ldBMemHl => loadSlot .b .hl
  | .ldCMemHl => loadSlot .c .hl
  | .ldDMemHl => loadSlot .d .hl
  | .ldEMemHl => loadSlot .e .hl
  | .ldHMemHl => loadSlot .h .hl
  | .ldLMemHl => loadSlot .l .hl
  | .ldMemHlB => storeSlot .hl .b
  | .ldMemHlC => storeSlot .hl .c
  | .ldMemHlD => storeSlot .hl .d
  | .ldMemHlE => storeSlot .hl .e
  | .ldMemHlH => storeSlot .hl .h
  | .ldMemHlL => storeSlot .hl .l
  | .ldMemHlA => storeSlot .hl .a
  | .ldAMemHl => loadSlot .a .hl
  | .subB => subFromA (.slot .b)
  | .subC => subFromA (.slot .c)
  | .subD => subFromA (.slot .d)
  | .subE => subFromA (.slot .e)
  | .subH => subFromA (.slot .h)
  | .subL => subFromA (.slot .l)
  | .subMemHl => subFromA .memHl
  | .subA => subFromA (.slot .a)
  | .xorB => xorIntoA (.slot .b)
  | .xorC => xorIntoA (.slot .c)
  | .xorD => xorIntoA (.slot .d)
  | .xorE => xorIntoA (.slot .e)
  | .xorH => xorIntoA (.slot .h)
  | .xorL => xorIntoA (.slot .l)
  | .xorMemHl => xorIntoA .memHl
  | .xorA => xorIntoA (.slot .a)
  | .cpB => compareA (.slot .b)
  | .cpC => compareA (.slot .c)
  | .cpD => compareA (.slot .d)
  | .cpE => compareA (.slot .e)
  | .cpH => compareA (.slot .h)
  | .cpL => compareA (.slot .l)
  | .cpMemHl => compareA .memHl
  | .cpA => compareA (.slot .a)
  | .popBc => popPair .bc
  | .jpNz t => jumpAbsolute .nz t
  | .jp t => jumpAbsolute .always t
  | .pushBc => pushPair .bc
  | .ret => returnToCaller
  | .jpZ t => jumpAbsolute .z t
  | .cbPrefix b => escapeTo b
  | .call t => callTo t
  | .popDe => popPair .de
  | .jpNc t => jumpAbsolute .nc t
  | .pushDe => pushPair .de
  | .subD8 d => subFromA (.imm d)
  | .jpC t => jumpAbsolute .c t
  | .ldhMemA o => storeSlot (.ioImm o) .a
  | .popHl => popPair .hl
  | .ldMemCA => storeSlot .ioC .a
  | .pushHl => pushPair .hl
  | .xorD8 d => xorIntoA (.imm d)
  | .ldhAMem o => loadSlot .a (.ioImm o)
  | .popAf => popPair .af
  | .ldAMemC => loadSlot .a .ioC
  | .pushAf => pushPair .af
  | .cpD8 d => compareA (.imm d)
  | .rlB => rotateSlot .b
  | .rlC => rotateSlot .c
  | .rlD => rotateSlot .d
  | .rlE => rotateSlot .e
  | .rlH => rotateSlot .h
  | .rlL => rotateSlot .l
  | .rlA => rotateSlot .a

/-- Every instruction moves PC past its bytes and then runs its sub-steps (30_encoding.md R90). -/
theorem exec_eq (i : Instr) (s : State) : exec i s = perform (BitVec.ofNat 16 i.length) (bodyOf i) s := by
  cases i <;> rfl

/-- The next state of an instruction: the state its sub-steps leave, with the fault taken when they raised one. -/
theorem exec_final (i : Instr) (s : State) :
    exec i s = .next ((bodyOf i (s.advance (BitVec.ofNat 16 i.length))).final s.pc) :=
  (exec_eq i s).trans (perform_eq _ _ _)

/-- Whatever an instruction's sub-steps and taking a fault leave, the instruction leaves. -/
theorem exec_preserves {β : Type} {g : State → β} {i : Instr} {s t : State} (h : exec i s = .next t)
    (hg : ∀ k a u, g (enterFault k a u) = g u)
    (hb : g (bodyOf i (s.advance (BitVec.ofNat 16 i.length))).state = g (s.advance (BitVec.ofNat 16 i.length))) :
    g t = g (s.advance (BitVec.ofNat 16 i.length)) :=
  perform_preserves ((exec_eq i s).symm.trans h) hg hb

end Sys2Proof.Machine
end

