-- ==== Sys2Proof/Laws/Word.lean ====
section
/-! SUPPORT. The laws of the slices of words (00_scope.md R7) and of the decoder's tables (30_encoding.md R82, R84). -/

namespace Sys2Proof

theorem cat_toNat (h l : Byte) : (cat h l).toNat = h.toNat * 256 + l.toNat := by
  unfold cat
  rw [BitVec.toNat_append, ← Nat.shiftLeft_add_eq_or_of_lt l.isLt, Nat.shiftLeft_eq]

theorem loByte_toNat (v : Word) : (loByte v).toNat = v.toNat % 256 := by
  simp [loByte, BitVec.extractLsb'_toNat]

theorem hiByte_toNat (v : Word) : (hiByte v).toNat = v.toNat / 256 := by
  simp only [hiByte, BitVec.extractLsb'_toNat, Nat.shiftRight_eq_div_pow]
  have := v.isLt; omega

@[simp] theorem loByte_cat (h l : Byte) : loByte (cat h l) = l := by
  apply BitVec.eq_of_toNat_eq; rw [loByte_toNat, cat_toNat]; have := l.isLt; omega

@[simp] theorem hiByte_cat (h l : Byte) : hiByte (cat h l) = h := by
  apply BitVec.eq_of_toNat_eq; rw [hiByte_toNat, cat_toNat]; have := l.isLt; omega

@[simp] theorem cat_hiByte_loByte (v : Word) : cat (hiByte v) (loByte v) = v := by
  apply BitVec.eq_of_toNat_eq; rw [cat_toNat, hiByte_toNat, loByte_toNat]; omega

theorem loByte_eq_ofNat (v : Word) : loByte v = BitVec.ofNat 8 (v.toNat % 256) := by
  apply BitVec.eq_of_toNat_eq; simp [loByte_toNat]

theorem hiByte_eq_ofNat (v : Word) : hiByte v = BitVec.ofNat 8 (v.toNat / 256) := by
  apply BitVec.eq_of_toNat_eq; rw [hiByte_toNat, BitVec.toNat_ofNat]; have := v.isLt; omega

/-- A byte has a secondary entry exactly when R84 lists it. -/
theorem secondaryEntry_isSome (b : Byte) : (secondaryEntry b).isSome = hasSecondaryEntry b := by
  revert b; decide

/-- A byte that R84 lists has its entry, and the others none. -/
theorem secondaryEntry_none {b : Byte} (h : hasSecondaryEntry b = false) : secondaryEntry b = none := by
  rw [← secondaryEntry_isSome] at h; simpa using h

end Sys2Proof
end

