-- ==== Sys2Proof/Laws/Decode.lean ====
section
/-! SUPPORT. The laws of the decoder's tables: every entry against the encoder, and the bytes with no entry (30_encoding.md R82,
R84, R92). -/

namespace Sys2Proof

/-- An entry that a byte has stands in the table. -/
theorem primaryEntry_mem {b : Byte} {e : Entry} (h : primaryEntry b = some e) : (b, e) ∈ primaryTable := by
  unfold primaryEntry at h
  cases hf : primaryTable.find? (fun r => r.1 == b) with
  | none => simp [hf] at h
  | some r =>
    simp [hf] at h; subst h
    have := List.mem_of_find?_eq_some hf
    have hb : r.1 = b := by simpa using List.find?_some hf
    rw [← hb]; exact this

/-- What the encoder says of an entry of the primary table at the byte `b`: every instruction it makes is well formed and is
encoded with that byte and its immediate. -/
def EntryMatches (b : Byte) : Entry → Prop
  | .plain i => i.wf = true ∧ encode i = [b]
  | .imm8 mk => ∀ d, (mk d).wf = true ∧ encode (mk d) = [b, d]
  | .imm16 mk => ∀ v, (mk v).wf = true ∧ encode (mk v) = [b, loByte v, hiByte v]
  | .escape => b = 0xCB

/-- Every entry of the primary table agrees with the encoder. -/
theorem primaryTable_matches : ∀ r ∈ primaryTable, EntryMatches r.1 r.2 := by
  simp only [primaryTable, List.forall_mem_append, row0, row1, row2, row3, row4, row5, row6, row7, row9, rowA, rowB, rowC, rowD, rowE, rowF,
    List.forall_mem_cons]
  simp [EntryMatches, Instr.wf, encode]

/-- The prefix and any second byte are the encoding of the well-formed instruction they decode to. -/
theorem decodeEscaped_matches : ∀ b : Byte, (decodeEscaped b).wf = true ∧ encode (decodeEscaped b) = [0xCB, b] := by
  decide

/-- The primary bytes with no entry are those of R92. -/
theorem primaryEntry_isNone : ∀ b : Byte, (primaryEntry b).isNone = Machine.illegalPrimary b := by decide

/-- The secondary bytes with no entry are those of R92. -/
theorem secondaryEntry_isNone : ∀ b : Byte, (secondaryEntry b).isNone = Machine.illegalSecondary b := by decide

/-- The register of a secondary entry is never F. -/
theorem rotateRegister_cases (b : Byte) : Machine.rotateRegister b = none ∨
    ∃ r, Machine.rotateRegister b = some r ∧ r ≠ .f ∧ hasSecondaryEntry b = true := by
  revert b; decide

end Sys2Proof
end

