-- ==== Sys2Proof/Laws/Frames.lean ====
section
/-! SUPPORT. The frame of every shared sequence of sub-steps: one lemma for each of flags, slots, SP, PC, status, configuration,
bytes of memory and events, saying when the sequence leaves it alone, whether it completes or raises. -/

namespace Sys2Proof.Machine

/-- The slots a memory operand's post-increment or post-decrement writes (40_loads.md R100). -/
def MemOperand.moved : MemOperand → List Slot
  | .hlInc => [.h, .l]
  | .hlDec => [.h, .l]
  | .bc => []
  | .de => []
  | .hl => []
  | .ioImm _ => []
  | .ioC => []

/-- The slots a 16-bit operand writes. -/
def WordOperand.slots : WordOperand → List Slot
  | .pair p => [p.hi, p.lo]
  | .sp => []

/-- A pair write leaves the slots of other pairs. -/
theorem State.slot_setPair_ne (s : State) (p : Pair) (v : Word) {q : Slot} (h : q ≠ p.hi) (h1 : q ≠ p.lo) :
    (s.setPair p v).slot q = s.slot q := by
  rw [State.slot_setPair, if_neg h, if_neg h1]

/-- A flag write leaves every other flag (10_state.md R27). -/
theorem State.flag_setFlag_ne (s : State) {f g : Flag} (on : Bool) (h : g ≠ f) : (s.setFlag f on).flag g = s.flag g := by
  rw [State.flag_setFlag, if_neg h]

/-- A free flag changes F alone. -/
theorem State.slot_drawFlag_ne (s : State) (f : Flag) {q : Slot} (h : q ≠ .f) : (s.drawFlag f).slot q = s.slot q :=
  State.slot_setFlag_ne s f _ h

theorem MemOperand.slot_post (m : MemOperand) (t : Word) (s : State) {q : Slot} (h : q ∉ m.moved) :
    (m.post t s).slot q = s.slot q := by
  cases m <;> first
    | rfl
    | (simp only [MemOperand.moved, List.mem_cons, List.not_mem_nil, or_false, not_or] at h
       exact State.slot_setPair_ne s .hl _ h.1 h.2)

theorem MemOperand.flag_post (m : MemOperand) (t : Word) (s : State) (f : Flag) : (m.post t s).flag f = s.flag f :=
  MemOperand.post_preserves (g := fun u => u.flag f) (fun u v => State.flag_setPair_ne u (by decide) v f) m t s


/-! ### flag -/

@[simp] theorem storeSlot_flag (m : MemOperand) (r : Slot) (s : State) (f : Flag) :
    (storeSlot m r s).state.flag f = s.flag f :=
  storeSlot_preserves (g := fun u => u.flag f) (fun u w => (fun u a v => State.flag_store u a v f) u _ w) (fun u t => MemOperand.flag_post m t u f)

@[simp] theorem loadSlot_flag (r : Slot) (m : MemOperand) (s : State) (f : Flag) (h : r ≠ .f) :
    (loadSlot r m s).state.flag f = s.flag f :=
  loadSlot_preserves (g := fun u => u.flag f) (fun u a => State.flag_afterRead u a f) (fun u v => State.flag_setSlot_ne u h v f) (fun u t => MemOperand.flag_post m t u f)

@[simp] theorem loadByte_flag (r : Slot) (d : Byte) (s : State) (f : Flag) (h : r ≠ .f) :
    (loadByte r d s).state.flag f = s.flag f :=
  (fun u v => State.flag_setSlot_ne u h v f) s d

@[simp] theorem loadWord_flag (w : WordOperand) (v : Word) (s : State) (f : Flag) (h : w ≠ .pair .af) :
    (loadWord w v s).state.flag f = s.flag f :=
  WordOperand.set_preserves (g := fun u => u.flag f) (fun u p v e => State.flag_setPair_ne u (fun e1 => h (by rw [e, e1])) v f) (fun u v _ => State.flag_setSp u v f) v s

@[simp] theorem incWord_flag (w : WordOperand) (s : State) (f : Flag) (h : w ≠ .pair .af) :
    (incWord w s).state.flag f = s.flag f :=
  WordOperand.set_preserves (g := fun u => u.flag f) (fun u p v e => State.flag_setPair_ne u (fun e1 => h (by rw [e, e1])) v f) (fun u v _ => State.flag_setSp u v f) _ s

@[simp] theorem decWord_flag (w : WordOperand) (s : State) (f : Flag) (h : w ≠ .pair .af) :
    (decWord w s).state.flag f = s.flag f :=
  WordOperand.set_preserves (g := fun u => u.flag f) (fun u p v e => State.flag_setPair_ne u (fun e1 => h (by rw [e, e1])) v f) (fun u v _ => State.flag_setSp u v f) _ s

@[simp] theorem incSlot_flag (r : Slot) (s : State) (f : Flag) (h : r ≠ .f) (hf : f ∉ [Flag.z, .n, .h]) :
    (incSlot r s).state.flag f = s.flag f :=
  incSlot_preserves (g := fun u => u.flag f) (fun u v => State.flag_setFlag_ne u v (fun e => hf (by simp [e]))) (fun u v => State.flag_setFlag_ne u v (fun e => hf (by simp [e]))) (fun u v => State.flag_setFlag_ne u v (fun e => hf (by simp [e]))) (fun u v => State.flag_setSlot_ne u h v f) s

@[simp] theorem decSlot_flag (r : Slot) (s : State) (f : Flag) (h : r ≠ .f) (hf : f ∉ [Flag.z, .n, .h]) :
    (decSlot r s).state.flag f = s.flag f :=
  decSlot_preserves (g := fun u => u.flag f) (fun u v => State.flag_setFlag_ne u v (fun e => hf (by simp [e]))) (fun u v => State.flag_setFlag_ne u v (fun e => hf (by simp [e]))) (fun u v => State.flag_setFlag_ne u v (fun e => hf (by simp [e]))) (fun u v => State.flag_setSlot_ne u h v f) s

@[simp] theorem xorIntoA_flag (x : Source) (s : State) (f : Flag) (hf : f ≠ .z) :
    (xorIntoA x s).state.flag f = s.flag f :=
  xorIntoA_preserves (g := fun u => u.flag f) (fun u a => State.flag_afterRead u a f) (fun u v => State.flag_setFlag_ne u v hf) (fun u v => State.flag_setSlot_ne u (by decide) v f) x s

@[simp] theorem jumpRelative_flag (k : Cond) (o : Byte) (s : State) (f : Flag) :
    (jumpRelative k o s).state.flag f = s.flag f :=
  jumpRelative_preserves (g := fun u => u.flag f) (fun u n => State.flag_advance u n f) k o s

@[simp] theorem jumpAbsolute_flag (k : Cond) (t : Word) (s : State) (f : Flag) :
    (jumpAbsolute k t s).state.flag f = s.flag f :=
  jumpAbsolute_preserves (g := fun u => u.flag f) (fun u v => State.flag_setPc u v f) k t s

@[simp] theorem callTo_flag (t : Word) (s : State) (f : Flag) :
    (callTo t s).state.flag f = s.flag f :=
  callTo_preserves (g := fun u => u.flag f) (fun u x w _ => (fun u a v => State.flag_store u a v f) u x w) (fun u v => State.flag_setSp u v f) (fun u v => State.flag_setPc u v f) t

@[simp] theorem returnToCaller_flag (s : State) (f : Flag) :
    (returnToCaller s).state.flag f = s.flag f :=
  returnToCaller_preserves (g := fun u => u.flag f) (fun u a => State.flag_afterRead u a f) (fun u v => State.flag_setSp u v f) (fun u v => State.flag_setPc u v f) s

@[simp] theorem pushPair_flag (p : Pair) (s : State) (f : Flag) :
    (pushPair p s).state.flag f = s.flag f :=
  pushPair_preserves (g := fun u => u.flag f) (fun u x w _ => (fun u a v => State.flag_store u a v f) u x w) (fun u v => State.flag_setSp u v f) p

@[simp] theorem popPair_flag (p : Pair) (s : State) (f : Flag) (h : p ≠ .af) :
    (popPair p s).state.flag f = s.flag f :=
  popPair_preserves (g := fun u => u.flag f) (fun u a => State.flag_afterRead u a f) (fun u v => State.flag_setSp u v f) (fun u v => State.flag_setPair_ne u h v f) s

@[simp] theorem escapeTo_flag (b : Byte) (s : State) (f : Flag) (h : rotateRegister b = none) :
    (escapeTo b s).state.flag f = s.flag f :=
  escapeTo_preserves (g := fun u => u.flag f) (fun r hr => by rw [h] at hr; cases hr) s

/-! ### slot -/

@[simp] theorem storeSlot_slot (m : MemOperand) (r : Slot) (s : State) (q : Slot) (h : q ∉ m.moved) :
    (storeSlot m r s).state.slot q = s.slot q :=
  storeSlot_preserves (g := fun u => u.slot q) (fun u w => (fun u a v => State.slot_store u a v q) u _ w) (fun u t => MemOperand.slot_post m t u h)

@[simp] theorem loadSlot_slot (r : Slot) (m : MemOperand) (s : State) (q : Slot) (h : q ≠ r) (h1 : q ∉ m.moved) :
    (loadSlot r m s).state.slot q = s.slot q :=
  loadSlot_preserves (g := fun u => u.slot q) (fun u a => State.slot_afterRead u a q) (fun u v => State.slot_setSlot_ne u h v) (fun u t => MemOperand.slot_post m t u h1)

@[simp] theorem loadByte_slot (r : Slot) (d : Byte) (s : State) (q : Slot) (h : q ≠ r) :
    (loadByte r d s).state.slot q = s.slot q :=
  (fun u v => State.slot_setSlot_ne u h v) s d

@[simp] theorem loadWord_slot (w : WordOperand) (v : Word) (s : State) (q : Slot) (h : q ∉ w.slots) :
    (loadWord w v s).state.slot q = s.slot q :=
  WordOperand.set_preserves (g := fun u => u.slot q) (fun u p v e => by
    subst e; simp only [WordOperand.slots, List.mem_cons, List.not_mem_nil, or_false, not_or] at h
    exact State.slot_setPair_ne u p v h.1 h.2) (fun _ _ _ => rfl) v s

@[simp] theorem incWord_slot (w : WordOperand) (s : State) (q : Slot) (h : q ∉ w.slots) :
    (incWord w s).state.slot q = s.slot q :=
  WordOperand.set_preserves (g := fun u => u.slot q) (fun u p v e => by
    subst e; simp only [WordOperand.slots, List.mem_cons, List.not_mem_nil, or_false, not_or] at h
    exact State.slot_setPair_ne u p v h.1 h.2) (fun _ _ _ => rfl) _ s

@[simp] theorem decWord_slot (w : WordOperand) (s : State) (q : Slot) (h : q ∉ w.slots) :
    (decWord w s).state.slot q = s.slot q :=
  WordOperand.set_preserves (g := fun u => u.slot q) (fun u p v e => by
    subst e; simp only [WordOperand.slots, List.mem_cons, List.not_mem_nil, or_false, not_or] at h
    exact State.slot_setPair_ne u p v h.1 h.2) (fun _ _ _ => rfl) _ s

@[simp] theorem incSlot_slot (r : Slot) (s : State) (q : Slot) (h : q ≠ r) (h1 : q ≠ .f) :
    (incSlot r s).state.slot q = s.slot q :=
  incSlot_preserves (g := fun u => u.slot q) (fun u v => (fun u f v => State.slot_setFlag_ne u f v h1) u .z v) (fun u v => (fun u f v => State.slot_setFlag_ne u f v h1) u .n v) (fun u v => (fun u f v => State.slot_setFlag_ne u f v h1) u .h v) (fun u v => State.slot_setSlot_ne u h v) s

@[simp] theorem decSlot_slot (r : Slot) (s : State) (q : Slot) (h : q ≠ r) (h1 : q ≠ .f) :
    (decSlot r s).state.slot q = s.slot q :=
  decSlot_preserves (g := fun u => u.slot q) (fun u v => (fun u f v => State.slot_setFlag_ne u f v h1) u .z v) (fun u v => (fun u f v => State.slot_setFlag_ne u f v h1) u .n v) (fun u v => (fun u f v => State.slot_setFlag_ne u f v h1) u .h v) (fun u v => State.slot_setSlot_ne u h v) s

@[simp] theorem subFromA_slot (x : Source) (s : State) (q : Slot) (h : q ≠ .a) (h1 : q ≠ .f) :
    (subFromA x s).state.slot q = s.slot q :=
  subFromA_preserves (g := fun u => u.slot q) (fun u a => State.slot_afterRead u a q) (fun u f v => State.slot_setFlag_ne u f v h1) (fun u v => State.slot_setSlot_ne u h v) x s

@[simp] theorem xorIntoA_slot (x : Source) (s : State) (q : Slot) (h : q ≠ .a) (h1 : q ≠ .f) :
    (xorIntoA x s).state.slot q = s.slot q :=
  xorIntoA_preserves (g := fun u => u.slot q) (fun u a => State.slot_afterRead u a q) (fun u v => (fun u f v => State.slot_setFlag_ne u f v h1) u .z v) (fun u v => State.slot_setSlot_ne u h v) x s

@[simp] theorem compareA_slot (x : Source) (s : State) (q : Slot) (h1 : q ≠ .f) :
    (compareA x s).state.slot q = s.slot q :=
  compareA_preserves (g := fun u => u.slot q) (fun u a => State.slot_afterRead u a q) (fun u f v => State.slot_setFlag_ne u f v h1) x s

@[simp] theorem rotateSlot_slot (r : Slot) (s : State) (q : Slot) (h : q ≠ r) (h1 : q ≠ .f) :
    (rotateSlot r s).state.slot q = s.slot q :=
  rotateSlot_preserves (g := fun u => u.slot q) (fun u f v => State.slot_setFlag_ne u f v h1) (fun u f => State.slot_drawFlag_ne u f h1) (fun u v => State.slot_setSlot_ne u h v) s

@[simp] theorem jumpRelative_slot (k : Cond) (o : Byte) (s : State) (q : Slot) :
    (jumpRelative k o s).state.slot q = s.slot q :=
  jumpRelative_preserves (g := fun u => u.slot q) (fun u n => State.slot_advance u n q) k o s

@[simp] theorem jumpAbsolute_slot (k : Cond) (t : Word) (s : State) (q : Slot) :
    (jumpAbsolute k t s).state.slot q = s.slot q :=
  jumpAbsolute_preserves (g := fun u => u.slot q) (fun u v => State.slot_setPc u v q) k t s

@[simp] theorem callTo_slot (t : Word) (s : State) (q : Slot) :
    (callTo t s).state.slot q = s.slot q :=
  callTo_preserves (g := fun u => u.slot q) (fun u x w _ => (fun u a v => State.slot_store u a v q) u x w) (fun u v => State.slot_setSp u v q) (fun u v => State.slot_setPc u v q) t

@[simp] theorem returnToCaller_slot (s : State) (q : Slot) :
    (returnToCaller s).state.slot q = s.slot q :=
  returnToCaller_preserves (g := fun u => u.slot q) (fun u a => State.slot_afterRead u a q) (fun u v => State.slot_setSp u v q) (fun u v => State.slot_setPc u v q) s

@[simp] theorem pushPair_slot (p : Pair) (s : State) (q : Slot) :
    (pushPair p s).state.slot q = s.slot q :=
  pushPair_preserves (g := fun u => u.slot q) (fun u x w _ => (fun u a v => State.slot_store u a v q) u x w) (fun u v => State.slot_setSp u v q) p

@[simp] theorem popPair_slot (p : Pair) (s : State) (q : Slot) (h : q ≠ p.hi) (h1 : q ≠ p.lo) :
    (popPair p s).state.slot q = s.slot q :=
  popPair_preserves (g := fun u => u.slot q) (fun u a => State.slot_afterRead u a q) (fun u v => State.slot_setSp u v q) (fun u v => State.slot_setPair_ne u p v h h1) s

@[simp] theorem escapeTo_slot (b : Byte) (s : State) (q : Slot) (h : ∀ r, rotateRegister b = some r → q ≠ r ∧ q ≠ .f) :
    (escapeTo b s).state.slot q = s.slot q :=
  escapeTo_preserves (g := fun u => u.slot q) (fun r hr u => rotateSlot_slot r u q (h r hr).1 (h r hr).2) s

/-! ### sp -/

@[simp] theorem storeSlot_sp (m : MemOperand) (r : Slot) (s : State) :
    (storeSlot m r s).state.sp = s.sp :=
  storeSlot_preserves (g := State.sp) (fun u w => (fun u a v => State.store_sp u a v) u _ w) (fun u t => MemOperand.post_preserves (g := State.sp) (fun u v => State.setPair_sp u _ v) m t u)

@[simp] theorem loadSlot_sp (r : Slot) (m : MemOperand) (s : State) :
    (loadSlot r m s).state.sp = s.sp :=
  loadSlot_preserves (g := State.sp) (fun u a => State.afterRead_sp u a) (fun u v => State.setSlot_sp u _ v) (fun u t => MemOperand.post_preserves (g := State.sp) (fun u v => State.setPair_sp u _ v) m t u)

@[simp] theorem loadByte_sp (r : Slot) (d : Byte) (s : State) :
    (loadByte r d s).state.sp = s.sp :=
  (fun u v => State.setSlot_sp u _ v) s d

@[simp] theorem loadWord_sp (w : WordOperand) (v : Word) (s : State) (h : w ≠ .sp) :
    (loadWord w v s).state.sp = s.sp :=
  WordOperand.set_preserves (g := State.sp) (fun u p v _ => State.setPair_sp u p v) (fun _ _ e => absurd e h) v s

@[simp] theorem incWord_sp (w : WordOperand) (s : State) (h : w ≠ .sp) :
    (incWord w s).state.sp = s.sp :=
  WordOperand.set_preserves (g := State.sp) (fun u p v _ => State.setPair_sp u p v) (fun _ _ e => absurd e h) _ s

@[simp] theorem decWord_sp (w : WordOperand) (s : State) (h : w ≠ .sp) :
    (decWord w s).state.sp = s.sp :=
  WordOperand.set_preserves (g := State.sp) (fun u p v _ => State.setPair_sp u p v) (fun _ _ e => absurd e h) _ s

@[simp] theorem incSlot_sp (r : Slot) (s : State) :
    (incSlot r s).state.sp = s.sp :=
  incSlot_preserves (g := State.sp) (fun u v => (fun u f v => State.setFlag_sp u f v) u .z v) (fun u v => (fun u f v => State.setFlag_sp u f v) u .n v) (fun u v => (fun u f v => State.setFlag_sp u f v) u .h v) (fun u v => State.setSlot_sp u _ v) s

@[simp] theorem decSlot_sp (r : Slot) (s : State) :
    (decSlot r s).state.sp = s.sp :=
  decSlot_preserves (g := State.sp) (fun u v => (fun u f v => State.setFlag_sp u f v) u .z v) (fun u v => (fun u f v => State.setFlag_sp u f v) u .n v) (fun u v => (fun u f v => State.setFlag_sp u f v) u .h v) (fun u v => State.setSlot_sp u _ v) s

@[simp] theorem subFromA_sp (x : Source) (s : State) :
    (subFromA x s).state.sp = s.sp :=
  subFromA_preserves (g := State.sp) (fun u a => State.afterRead_sp u a) (fun u f v => State.setFlag_sp u f v) (fun u v => State.setSlot_sp u _ v) x s

@[simp] theorem xorIntoA_sp (x : Source) (s : State) :
    (xorIntoA x s).state.sp = s.sp :=
  xorIntoA_preserves (g := State.sp) (fun u a => State.afterRead_sp u a) (fun u v => (fun u f v => State.setFlag_sp u f v) u .z v) (fun u v => State.setSlot_sp u _ v) x s

@[simp] theorem compareA_sp (x : Source) (s : State) :
    (compareA x s).state.sp = s.sp :=
  compareA_preserves (g := State.sp) (fun u a => State.afterRead_sp u a) (fun u f v => State.setFlag_sp u f v) x s

@[simp] theorem rotateSlot_sp (r : Slot) (s : State) :
    (rotateSlot r s).state.sp = s.sp :=
  rotateSlot_preserves (g := State.sp) (fun u f v => State.setFlag_sp u f v) (fun u f => State.drawFlag_sp u f) (fun u v => State.setSlot_sp u _ v) s

@[simp] theorem jumpRelative_sp (k : Cond) (o : Byte) (s : State) :
    (jumpRelative k o s).state.sp = s.sp :=
  jumpRelative_preserves (g := State.sp) (fun _ _ => rfl) k o s

@[simp] theorem jumpAbsolute_sp (k : Cond) (t : Word) (s : State) :
    (jumpAbsolute k t s).state.sp = s.sp :=
  jumpAbsolute_preserves (g := State.sp) (fun _ _ => rfl) k t s

@[simp] theorem escapeTo_sp (b : Byte) (s : State) :
    (escapeTo b s).state.sp = s.sp :=
  escapeTo_preserves (g := State.sp) (fun r _ u => rotateSlot_sp r u) s

/-! ### pc -/

@[simp] theorem storeSlot_pc (m : MemOperand) (r : Slot) (s : State) :
    (storeSlot m r s).state.pc = s.pc :=
  storeSlot_preserves (g := State.pc) (fun u w => (fun u a v => State.store_pc u a v) u _ w) (fun u t => MemOperand.post_preserves (g := State.pc) (fun u v => State.setPair_pc u _ v) m t u)

@[simp] theorem loadSlot_pc (r : Slot) (m : MemOperand) (s : State) :
    (loadSlot r m s).state.pc = s.pc :=
  loadSlot_preserves (g := State.pc) (fun u a => State.afterRead_pc u a) (fun u v => State.setSlot_pc u _ v) (fun u t => MemOperand.post_preserves (g := State.pc) (fun u v => State.setPair_pc u _ v) m t u)

@[simp] theorem loadByte_pc (r : Slot) (d : Byte) (s : State) :
    (loadByte r d s).state.pc = s.pc :=
  (fun u v => State.setSlot_pc u _ v) s d

@[simp] theorem loadWord_pc (w : WordOperand) (v : Word) (s : State) :
    (loadWord w v s).state.pc = s.pc :=
  WordOperand.set_preserves (g := State.pc) (fun u p v _ => State.setPair_pc u p v) (fun _ _ _ => rfl) v s

@[simp] theorem incWord_pc (w : WordOperand) (s : State) :
    (incWord w s).state.pc = s.pc :=
  WordOperand.set_preserves (g := State.pc) (fun u p v _ => State.setPair_pc u p v) (fun _ _ _ => rfl) _ s

@[simp] theorem decWord_pc (w : WordOperand) (s : State) :
    (decWord w s).state.pc = s.pc :=
  WordOperand.set_preserves (g := State.pc) (fun u p v _ => State.setPair_pc u p v) (fun _ _ _ => rfl) _ s

@[simp] theorem incSlot_pc (r : Slot) (s : State) :
    (incSlot r s).state.pc = s.pc :=
  incSlot_preserves (g := State.pc) (fun u v => (fun u f v => State.setFlag_pc u f v) u .z v) (fun u v => (fun u f v => State.setFlag_pc u f v) u .n v) (fun u v => (fun u f v => State.setFlag_pc u f v) u .h v) (fun u v => State.setSlot_pc u _ v) s

@[simp] theorem decSlot_pc (r : Slot) (s : State) :
    (decSlot r s).state.pc = s.pc :=
  decSlot_preserves (g := State.pc) (fun u v => (fun u f v => State.setFlag_pc u f v) u .z v) (fun u v => (fun u f v => State.setFlag_pc u f v) u .n v) (fun u v => (fun u f v => State.setFlag_pc u f v) u .h v) (fun u v => State.setSlot_pc u _ v) s

@[simp] theorem subFromA_pc (x : Source) (s : State) :
    (subFromA x s).state.pc = s.pc :=
  subFromA_preserves (g := State.pc) (fun u a => State.afterRead_pc u a) (fun u f v => State.setFlag_pc u f v) (fun u v => State.setSlot_pc u _ v) x s

@[simp] theorem xorIntoA_pc (x : Source) (s : State) :
    (xorIntoA x s).state.pc = s.pc :=
  xorIntoA_preserves (g := State.pc) (fun u a => State.afterRead_pc u a) (fun u v => (fun u f v => State.setFlag_pc u f v) u .z v) (fun u v => State.setSlot_pc u _ v) x s

@[simp] theorem compareA_pc (x : Source) (s : State) :
    (compareA x s).state.pc = s.pc :=
  compareA_preserves (g := State.pc) (fun u a => State.afterRead_pc u a) (fun u f v => State.setFlag_pc u f v) x s

@[simp] theorem rotateSlot_pc (r : Slot) (s : State) :
    (rotateSlot r s).state.pc = s.pc :=
  rotateSlot_preserves (g := State.pc) (fun u f v => State.setFlag_pc u f v) (fun u f => State.drawFlag_pc u f) (fun u v => State.setSlot_pc u _ v) s

@[simp] theorem pushPair_pc (p : Pair) (s : State) :
    (pushPair p s).state.pc = s.pc :=
  pushPair_preserves (g := State.pc) (fun u x w _ => (fun u a v => State.store_pc u a v) u x w) (fun _ _ => rfl) p

@[simp] theorem popPair_pc (p : Pair) (s : State) :
    (popPair p s).state.pc = s.pc :=
  popPair_preserves (g := State.pc) (fun u a => State.afterRead_pc u a) (fun _ _ => rfl) (fun u v => State.setPair_pc u _ v) s

@[simp] theorem escapeTo_pc (b : Byte) (s : State) :
    (escapeTo b s).state.pc = s.pc :=
  escapeTo_preserves (g := State.pc) (fun r _ u => rotateSlot_pc r u) s

/-! ### status -/

@[simp] theorem storeSlot_status (m : MemOperand) (r : Slot) (s : State) :
    (storeSlot m r s).state.status = s.status :=
  storeSlot_preserves (g := State.status) (fun u w => (fun u a v => State.store_status u a v) u _ w) (fun u t => MemOperand.post_preserves (g := State.status) (fun u v => State.setPair_status u _ v) m t u)

@[simp] theorem loadSlot_status (r : Slot) (m : MemOperand) (s : State) :
    (loadSlot r m s).state.status = s.status :=
  loadSlot_preserves (g := State.status) (fun u a => State.afterRead_status u a) (fun u v => State.setSlot_status u _ v) (fun u t => MemOperand.post_preserves (g := State.status) (fun u v => State.setPair_status u _ v) m t u)

@[simp] theorem loadByte_status (r : Slot) (d : Byte) (s : State) :
    (loadByte r d s).state.status = s.status :=
  (fun u v => State.setSlot_status u _ v) s d

@[simp] theorem loadWord_status (w : WordOperand) (v : Word) (s : State) :
    (loadWord w v s).state.status = s.status :=
  WordOperand.set_preserves (g := State.status) (fun u p v _ => State.setPair_status u p v) (fun _ _ _ => rfl) v s

@[simp] theorem incWord_status (w : WordOperand) (s : State) :
    (incWord w s).state.status = s.status :=
  WordOperand.set_preserves (g := State.status) (fun u p v _ => State.setPair_status u p v) (fun _ _ _ => rfl) _ s

@[simp] theorem decWord_status (w : WordOperand) (s : State) :
    (decWord w s).state.status = s.status :=
  WordOperand.set_preserves (g := State.status) (fun u p v _ => State.setPair_status u p v) (fun _ _ _ => rfl) _ s

@[simp] theorem incSlot_status (r : Slot) (s : State) :
    (incSlot r s).state.status = s.status :=
  incSlot_preserves (g := State.status) (fun u v => (fun u f v => State.setFlag_status u f v) u .z v) (fun u v => (fun u f v => State.setFlag_status u f v) u .n v) (fun u v => (fun u f v => State.setFlag_status u f v) u .h v) (fun u v => State.setSlot_status u _ v) s

@[simp] theorem decSlot_status (r : Slot) (s : State) :
    (decSlot r s).state.status = s.status :=
  decSlot_preserves (g := State.status) (fun u v => (fun u f v => State.setFlag_status u f v) u .z v) (fun u v => (fun u f v => State.setFlag_status u f v) u .n v) (fun u v => (fun u f v => State.setFlag_status u f v) u .h v) (fun u v => State.setSlot_status u _ v) s

@[simp] theorem subFromA_status (x : Source) (s : State) :
    (subFromA x s).state.status = s.status :=
  subFromA_preserves (g := State.status) (fun u a => State.afterRead_status u a) (fun u f v => State.setFlag_status u f v) (fun u v => State.setSlot_status u _ v) x s

@[simp] theorem xorIntoA_status (x : Source) (s : State) :
    (xorIntoA x s).state.status = s.status :=
  xorIntoA_preserves (g := State.status) (fun u a => State.afterRead_status u a) (fun u v => (fun u f v => State.setFlag_status u f v) u .z v) (fun u v => State.setSlot_status u _ v) x s

@[simp] theorem compareA_status (x : Source) (s : State) :
    (compareA x s).state.status = s.status :=
  compareA_preserves (g := State.status) (fun u a => State.afterRead_status u a) (fun u f v => State.setFlag_status u f v) x s

@[simp] theorem rotateSlot_status (r : Slot) (s : State) :
    (rotateSlot r s).state.status = s.status :=
  rotateSlot_preserves (g := State.status) (fun u f v => State.setFlag_status u f v) (fun u f => State.drawFlag_status u f) (fun u v => State.setSlot_status u _ v) s

@[simp] theorem jumpRelative_status (k : Cond) (o : Byte) (s : State) :
    (jumpRelative k o s).state.status = s.status :=
  jumpRelative_preserves (g := State.status) (fun _ _ => rfl) k o s

@[simp] theorem jumpAbsolute_status (k : Cond) (t : Word) (s : State) :
    (jumpAbsolute k t s).state.status = s.status :=
  jumpAbsolute_preserves (g := State.status) (fun _ _ => rfl) k t s

@[simp] theorem callTo_status (t : Word) (s : State) :
    (callTo t s).state.status = s.status :=
  callTo_preserves (g := State.status) (fun u x w _ => (fun u a v => State.store_status u a v) u x w) (fun _ _ => rfl) (fun _ _ => rfl) t

@[simp] theorem returnToCaller_status (s : State) :
    (returnToCaller s).state.status = s.status :=
  returnToCaller_preserves (g := State.status) (fun u a => State.afterRead_status u a) (fun _ _ => rfl) (fun _ _ => rfl) s

@[simp] theorem pushPair_status (p : Pair) (s : State) :
    (pushPair p s).state.status = s.status :=
  pushPair_preserves (g := State.status) (fun u x w _ => (fun u a v => State.store_status u a v) u x w) (fun _ _ => rfl) p

@[simp] theorem popPair_status (p : Pair) (s : State) :
    (popPair p s).state.status = s.status :=
  popPair_preserves (g := State.status) (fun u a => State.afterRead_status u a) (fun _ _ => rfl) (fun u v => State.setPair_status u _ v) s

@[simp] theorem escapeTo_status (b : Byte) (s : State) :
    (escapeTo b s).state.status = s.status :=
  escapeTo_preserves (g := State.status) (fun r _ u => rotateSlot_status r u) s

/-! ### config -/

@[simp] theorem storeSlot_config (m : MemOperand) (r : Slot) (s : State) :
    (storeSlot m r s).state.config = s.config :=
  storeSlot_preserves (g := State.config) (fun u w => (fun u a v => State.store_config u a v) u _ w) (fun u t => MemOperand.post_preserves (g := State.config) (fun u v => State.setPair_config u _ v) m t u)

@[simp] theorem loadSlot_config (r : Slot) (m : MemOperand) (s : State) :
    (loadSlot r m s).state.config = s.config :=
  loadSlot_preserves (g := State.config) (fun u a => State.afterRead_config u a) (fun u v => State.setSlot_config u _ v) (fun u t => MemOperand.post_preserves (g := State.config) (fun u v => State.setPair_config u _ v) m t u)

@[simp] theorem loadByte_config (r : Slot) (d : Byte) (s : State) :
    (loadByte r d s).state.config = s.config :=
  (fun u v => State.setSlot_config u _ v) s d

@[simp] theorem loadWord_config (w : WordOperand) (v : Word) (s : State) :
    (loadWord w v s).state.config = s.config :=
  WordOperand.set_preserves (g := State.config) (fun u p v _ => State.setPair_config u p v) (fun _ _ _ => rfl) v s

@[simp] theorem incWord_config (w : WordOperand) (s : State) :
    (incWord w s).state.config = s.config :=
  WordOperand.set_preserves (g := State.config) (fun u p v _ => State.setPair_config u p v) (fun _ _ _ => rfl) _ s

@[simp] theorem decWord_config (w : WordOperand) (s : State) :
    (decWord w s).state.config = s.config :=
  WordOperand.set_preserves (g := State.config) (fun u p v _ => State.setPair_config u p v) (fun _ _ _ => rfl) _ s

@[simp] theorem incSlot_config (r : Slot) (s : State) :
    (incSlot r s).state.config = s.config :=
  incSlot_preserves (g := State.config) (fun u v => (fun u f v => State.setFlag_config u f v) u .z v) (fun u v => (fun u f v => State.setFlag_config u f v) u .n v) (fun u v => (fun u f v => State.setFlag_config u f v) u .h v) (fun u v => State.setSlot_config u _ v) s

@[simp] theorem decSlot_config (r : Slot) (s : State) :
    (decSlot r s).state.config = s.config :=
  decSlot_preserves (g := State.config) (fun u v => (fun u f v => State.setFlag_config u f v) u .z v) (fun u v => (fun u f v => State.setFlag_config u f v) u .n v) (fun u v => (fun u f v => State.setFlag_config u f v) u .h v) (fun u v => State.setSlot_config u _ v) s

@[simp] theorem subFromA_config (x : Source) (s : State) :
    (subFromA x s).state.config = s.config :=
  subFromA_preserves (g := State.config) (fun u a => State.afterRead_config u a) (fun u f v => State.setFlag_config u f v) (fun u v => State.setSlot_config u _ v) x s

@[simp] theorem xorIntoA_config (x : Source) (s : State) :
    (xorIntoA x s).state.config = s.config :=
  xorIntoA_preserves (g := State.config) (fun u a => State.afterRead_config u a) (fun u v => (fun u f v => State.setFlag_config u f v) u .z v) (fun u v => State.setSlot_config u _ v) x s

@[simp] theorem compareA_config (x : Source) (s : State) :
    (compareA x s).state.config = s.config :=
  compareA_preserves (g := State.config) (fun u a => State.afterRead_config u a) (fun u f v => State.setFlag_config u f v) x s

@[simp] theorem rotateSlot_config (r : Slot) (s : State) :
    (rotateSlot r s).state.config = s.config :=
  rotateSlot_preserves (g := State.config) (fun u f v => State.setFlag_config u f v) (fun u f => State.drawFlag_config u f) (fun u v => State.setSlot_config u _ v) s

@[simp] theorem jumpRelative_config (k : Cond) (o : Byte) (s : State) :
    (jumpRelative k o s).state.config = s.config :=
  jumpRelative_preserves (g := State.config) (fun _ _ => rfl) k o s

@[simp] theorem jumpAbsolute_config (k : Cond) (t : Word) (s : State) :
    (jumpAbsolute k t s).state.config = s.config :=
  jumpAbsolute_preserves (g := State.config) (fun _ _ => rfl) k t s

@[simp] theorem callTo_config (t : Word) (s : State) :
    (callTo t s).state.config = s.config :=
  callTo_preserves (g := State.config) (fun u x w _ => (fun u a v => State.store_config u a v) u x w) (fun _ _ => rfl) (fun _ _ => rfl) t

@[simp] theorem returnToCaller_config (s : State) :
    (returnToCaller s).state.config = s.config :=
  returnToCaller_preserves (g := State.config) (fun u a => State.afterRead_config u a) (fun _ _ => rfl) (fun _ _ => rfl) s

@[simp] theorem pushPair_config (p : Pair) (s : State) :
    (pushPair p s).state.config = s.config :=
  pushPair_preserves (g := State.config) (fun u x w _ => (fun u a v => State.store_config u a v) u x w) (fun _ _ => rfl) p

@[simp] theorem popPair_config (p : Pair) (s : State) :
    (popPair p s).state.config = s.config :=
  popPair_preserves (g := State.config) (fun u a => State.afterRead_config u a) (fun _ _ => rfl) (fun u v => State.setPair_config u _ v) s

@[simp] theorem escapeTo_config (b : Byte) (s : State) :
    (escapeTo b s).state.config = s.config :=
  escapeTo_preserves (g := State.config) (fun r _ u => rotateSlot_config r u) s

/-! ### peek -/

@[simp] theorem storeSlot_peek (m : MemOperand) (r : Slot) (s : State) (b : Word) (h : b ≠ m.address s) :
    (storeSlot m r s).state.peek b = s.peek b :=
  storeSlot_preserves (g := fun u => u.peek b) (fun u w => by rw [State.peek_store, if_neg fun e => h e.2]) (fun u t => MemOperand.post_preserves (g := fun u => u.peek b) (fun u v => State.peek_congr (State.setPair_mem u _ v) b) m t u)

@[simp] theorem loadSlot_peek (r : Slot) (m : MemOperand) (s : State) (b : Word) :
    (loadSlot r m s).state.peek b = s.peek b :=
  loadSlot_preserves (g := fun u => u.peek b) (fun u a => State.peek_congr (State.afterRead_mem u a) b) (fun u v => State.peek_congr (State.setSlot_mem u _ v) b) (fun u t => MemOperand.post_preserves (g := fun u => u.peek b) (fun u v => State.peek_congr (State.setPair_mem u _ v) b) m t u)

@[simp] theorem loadByte_peek (r : Slot) (d : Byte) (s : State) (b : Word) :
    (loadByte r d s).state.peek b = s.peek b :=
  (fun u v => State.peek_congr (State.setSlot_mem u _ v) b) s d

@[simp] theorem loadWord_peek (w : WordOperand) (v : Word) (s : State) (b : Word) :
    (loadWord w v s).state.peek b = s.peek b :=
  WordOperand.set_preserves (g := fun u => u.peek b) (fun u p v _ => State.peek_congr (State.setPair_mem u p v) b) (fun _ _ _ => rfl) v s

@[simp] theorem incWord_peek (w : WordOperand) (s : State) (b : Word) :
    (incWord w s).state.peek b = s.peek b :=
  WordOperand.set_preserves (g := fun u => u.peek b) (fun u p v _ => State.peek_congr (State.setPair_mem u p v) b) (fun _ _ _ => rfl) _ s

@[simp] theorem decWord_peek (w : WordOperand) (s : State) (b : Word) :
    (decWord w s).state.peek b = s.peek b :=
  WordOperand.set_preserves (g := fun u => u.peek b) (fun u p v _ => State.peek_congr (State.setPair_mem u p v) b) (fun _ _ _ => rfl) _ s

@[simp] theorem incSlot_peek (r : Slot) (s : State) (b : Word) :
    (incSlot r s).state.peek b = s.peek b :=
  incSlot_preserves (g := fun u => u.peek b) (fun u v => (fun u f v => State.peek_congr (State.setFlag_mem u f v) b) u .z v) (fun u v => (fun u f v => State.peek_congr (State.setFlag_mem u f v) b) u .n v) (fun u v => (fun u f v => State.peek_congr (State.setFlag_mem u f v) b) u .h v) (fun u v => State.peek_congr (State.setSlot_mem u _ v) b) s

@[simp] theorem decSlot_peek (r : Slot) (s : State) (b : Word) :
    (decSlot r s).state.peek b = s.peek b :=
  decSlot_preserves (g := fun u => u.peek b) (fun u v => (fun u f v => State.peek_congr (State.setFlag_mem u f v) b) u .z v) (fun u v => (fun u f v => State.peek_congr (State.setFlag_mem u f v) b) u .n v) (fun u v => (fun u f v => State.peek_congr (State.setFlag_mem u f v) b) u .h v) (fun u v => State.peek_congr (State.setSlot_mem u _ v) b) s

@[simp] theorem subFromA_peek (x : Source) (s : State) (b : Word) :
    (subFromA x s).state.peek b = s.peek b :=
  subFromA_preserves (g := fun u => u.peek b) (fun u a => State.peek_congr (State.afterRead_mem u a) b) (fun u f v => State.peek_congr (State.setFlag_mem u f v) b) (fun u v => State.peek_congr (State.setSlot_mem u _ v) b) x s

@[simp] theorem xorIntoA_peek (x : Source) (s : State) (b : Word) :
    (xorIntoA x s).state.peek b = s.peek b :=
  xorIntoA_preserves (g := fun u => u.peek b) (fun u a => State.peek_congr (State.afterRead_mem u a) b) (fun u v => (fun u f v => State.peek_congr (State.setFlag_mem u f v) b) u .z v) (fun u v => State.peek_congr (State.setSlot_mem u _ v) b) x s

@[simp] theorem compareA_peek (x : Source) (s : State) (b : Word) :
    (compareA x s).state.peek b = s.peek b :=
  compareA_preserves (g := fun u => u.peek b) (fun u a => State.peek_congr (State.afterRead_mem u a) b) (fun u f v => State.peek_congr (State.setFlag_mem u f v) b) x s

@[simp] theorem rotateSlot_peek (r : Slot) (s : State) (b : Word) :
    (rotateSlot r s).state.peek b = s.peek b :=
  rotateSlot_preserves (g := fun u => u.peek b) (fun u f v => State.peek_congr (State.setFlag_mem u f v) b) (fun u f => State.peek_congr (State.drawFlag_mem u f) b) (fun u v => State.peek_congr (State.setSlot_mem u _ v) b) s

@[simp] theorem jumpRelative_peek (k : Cond) (o : Byte) (s : State) (b : Word) :
    (jumpRelative k o s).state.peek b = s.peek b :=
  jumpRelative_preserves (g := fun u => u.peek b) (fun _ _ => rfl) k o s

@[simp] theorem jumpAbsolute_peek (k : Cond) (t : Word) (s : State) (b : Word) :
    (jumpAbsolute k t s).state.peek b = s.peek b :=
  jumpAbsolute_preserves (g := fun u => u.peek b) (fun _ _ => rfl) k t s

@[simp] theorem callTo_peek (t : Word) (s : State) (b : Word) (h : b ≠ s.sp - 1) (h1 : b ≠ s.sp) :
    (callTo t s).state.peek b = s.peek b :=
  callTo_preserves (g := fun u => u.peek b) (fun u x w e => by
    rcases e with rfl | rfl
    · rw [State.peek_store, if_neg fun e => h e.2]
    · rw [State.peek_store, if_neg fun e => h1 e.2]) (fun _ _ => rfl) (fun _ _ => rfl) t

@[simp] theorem returnToCaller_peek (s : State) (b : Word) :
    (returnToCaller s).state.peek b = s.peek b :=
  returnToCaller_preserves (g := fun u => u.peek b) (fun u a => State.peek_congr (State.afterRead_mem u a) b) (fun _ _ => rfl) (fun _ _ => rfl) s

@[simp] theorem pushPair_peek (p : Pair) (s : State) (b : Word) (h : b ≠ s.sp - 1) (h1 : b ≠ s.sp) :
    (pushPair p s).state.peek b = s.peek b :=
  pushPair_preserves (g := fun u => u.peek b) (fun u x w e => by
    rcases e with rfl | rfl
    · rw [State.peek_store, if_neg fun e => h e.2]
    · rw [State.peek_store, if_neg fun e => h1 e.2]) (fun _ _ => rfl) p

@[simp] theorem popPair_peek (p : Pair) (s : State) (b : Word) :
    (popPair p s).state.peek b = s.peek b :=
  popPair_preserves (g := fun u => u.peek b) (fun u a => State.peek_congr (State.afterRead_mem u a) b) (fun _ _ => rfl) (fun u v => State.peek_congr (State.setPair_mem u _ v) b) s

@[simp] theorem escapeTo_peek (e : Byte) (s : State) (b : Word) :
    (escapeTo e s).state.peek b = s.peek b :=
  escapeTo_preserves (g := fun u => u.peek b) (fun r _ u => rotateSlot_peek r u b) s

/-! ### ioOut -/

theorem storeSlot_ioOut (m : MemOperand) (r : Slot) (s : State) (h : s.delegated (m.address s) = false) : (storeSlot m r s).state.ioOut = s.ioOut := by
  unfold storeSlot
  simp only
  cases hw : s.writable (m.address s)
  · rw [writeByte_raise hw]; rfl
  · rw [writeByte_ok hw, Result.bind_ok, Result.state_ok,
      MemOperand.post_preserves (g := State.ioOut) (fun u v => State.setPair_ioOut u _ v)]
    simp [State.store, h]

@[simp] theorem loadSlot_ioOut (r : Slot) (m : MemOperand) (s : State) :
    (loadSlot r m s).state.ioOut = s.ioOut :=
  loadSlot_preserves (g := State.ioOut) (fun u a => State.afterRead_ioOut u a) (fun u v => State.setSlot_ioOut u _ v) (fun u t => MemOperand.post_preserves (g := State.ioOut) (fun u v => State.setPair_ioOut u _ v) m t u)

@[simp] theorem loadByte_ioOut (r : Slot) (d : Byte) (s : State) :
    (loadByte r d s).state.ioOut = s.ioOut :=
  (fun u v => State.setSlot_ioOut u _ v) s d

@[simp] theorem loadWord_ioOut (w : WordOperand) (v : Word) (s : State) :
    (loadWord w v s).state.ioOut = s.ioOut :=
  WordOperand.set_preserves (g := State.ioOut) (fun u p v _ => State.setPair_ioOut u p v) (fun _ _ _ => rfl) v s

@[simp] theorem incWord_ioOut (w : WordOperand) (s : State) :
    (incWord w s).state.ioOut = s.ioOut :=
  WordOperand.set_preserves (g := State.ioOut) (fun u p v _ => State.setPair_ioOut u p v) (fun _ _ _ => rfl) _ s

@[simp] theorem decWord_ioOut (w : WordOperand) (s : State) :
    (decWord w s).state.ioOut = s.ioOut :=
  WordOperand.set_preserves (g := State.ioOut) (fun u p v _ => State.setPair_ioOut u p v) (fun _ _ _ => rfl) _ s

@[simp] theorem incSlot_ioOut (r : Slot) (s : State) :
    (incSlot r s).state.ioOut = s.ioOut :=
  incSlot_preserves (g := State.ioOut) (fun u v => (fun u f v => State.setFlag_ioOut u f v) u .z v) (fun u v => (fun u f v => State.setFlag_ioOut u f v) u .n v) (fun u v => (fun u f v => State.setFlag_ioOut u f v) u .h v) (fun u v => State.setSlot_ioOut u _ v) s

@[simp] theorem decSlot_ioOut (r : Slot) (s : State) :
    (decSlot r s).state.ioOut = s.ioOut :=
  decSlot_preserves (g := State.ioOut) (fun u v => (fun u f v => State.setFlag_ioOut u f v) u .z v) (fun u v => (fun u f v => State.setFlag_ioOut u f v) u .n v) (fun u v => (fun u f v => State.setFlag_ioOut u f v) u .h v) (fun u v => State.setSlot_ioOut u _ v) s

@[simp] theorem subFromA_ioOut (x : Source) (s : State) :
    (subFromA x s).state.ioOut = s.ioOut :=
  subFromA_preserves (g := State.ioOut) (fun u a => State.afterRead_ioOut u a) (fun u f v => State.setFlag_ioOut u f v) (fun u v => State.setSlot_ioOut u _ v) x s

@[simp] theorem xorIntoA_ioOut (x : Source) (s : State) :
    (xorIntoA x s).state.ioOut = s.ioOut :=
  xorIntoA_preserves (g := State.ioOut) (fun u a => State.afterRead_ioOut u a) (fun u v => (fun u f v => State.setFlag_ioOut u f v) u .z v) (fun u v => State.setSlot_ioOut u _ v) x s

@[simp] theorem compareA_ioOut (x : Source) (s : State) :
    (compareA x s).state.ioOut = s.ioOut :=
  compareA_preserves (g := State.ioOut) (fun u a => State.afterRead_ioOut u a) (fun u f v => State.setFlag_ioOut u f v) x s

@[simp] theorem rotateSlot_ioOut (r : Slot) (s : State) :
    (rotateSlot r s).state.ioOut = s.ioOut :=
  rotateSlot_preserves (g := State.ioOut) (fun u f v => State.setFlag_ioOut u f v) (fun u f => State.drawFlag_ioOut u f) (fun u v => State.setSlot_ioOut u _ v) s

@[simp] theorem jumpRelative_ioOut (k : Cond) (o : Byte) (s : State) :
    (jumpRelative k o s).state.ioOut = s.ioOut :=
  jumpRelative_preserves (g := State.ioOut) (fun _ _ => rfl) k o s

@[simp] theorem jumpAbsolute_ioOut (k : Cond) (t : Word) (s : State) :
    (jumpAbsolute k t s).state.ioOut = s.ioOut :=
  jumpAbsolute_preserves (g := State.ioOut) (fun _ _ => rfl) k t s

@[simp] theorem returnToCaller_ioOut (s : State) :
    (returnToCaller s).state.ioOut = s.ioOut :=
  returnToCaller_preserves (g := State.ioOut) (fun u a => State.afterRead_ioOut u a) (fun _ _ => rfl) (fun _ _ => rfl) s

@[simp] theorem popPair_ioOut (p : Pair) (s : State) :
    (popPair p s).state.ioOut = s.ioOut :=
  popPair_preserves (g := State.ioOut) (fun u a => State.afterRead_ioOut u a) (fun _ _ => rfl) (fun u v => State.setPair_ioOut u _ v) s

@[simp] theorem escapeTo_ioOut (b : Byte) (s : State) :
    (escapeTo b s).state.ioOut = s.ioOut :=
  escapeTo_preserves (g := State.ioOut) (fun r _ u => rotateSlot_ioOut r u) s

/-! ### Free values taken

Reads an arbitrary collaborator answers and rotates under Draw take free values; nothing else does (log 7, 8). -/

/-- A read at an address that is not delegated leaves the state as it was. -/
theorem readByte_state_of_not_delegated {a : Word} {s : State} (h : s.delegated a = false) : (readByte a s).state = s := by
  unfold readByte
  split
  · rw [Result.state_ok, State.afterRead_of_not_delegated h]
  · rfl

theorem Source.read_state_of_not_delegated {x : Source} {s : State}
    (h : x = .memHl → s.delegated (s.pair .hl) = false) : (x.read s).state = s := by
  cases x with
  | slot r => rfl
  | memHl => exact readByte_state_of_not_delegated (h rfl)
  | imm d => rfl

theorem pop_draws {s : State} (h : s.delegated (s.sp + 1) = false) (h' : s.delegated (s.sp + 2) = false) :
    (pop s).state.draws = s.draws := by
  have h2 : s.delegated (s.sp + 1 + 1) = false := by rw [BitVec.add_assoc]; exact h'
  unfold pop readWord readByte
  rw [State.afterRead_of_not_delegated h]
  split
  · simp only [Result.bind_ok]
    rw [State.afterRead_of_not_delegated h2]
    split <;> rfl
  · rfl

@[simp] theorem storeSlot_draws (m : MemOperand) (r : Slot) (s : State) : (storeSlot m r s).state.draws = s.draws :=
  storeSlot_preserves (g := State.draws) (fun u _ => State.store_draws u _ _)
    (fun u t => MemOperand.post_preserves (g := State.draws) (fun u v => State.setPair_draws u _ v) m t u)

theorem loadSlot_draws {m : MemOperand} (r : Slot) {s : State} (h : s.delegated (m.address s) = false) :
    (loadSlot r m s).state.draws = s.draws := by
  unfold loadSlot
  rw [Result.bind_preserves (g := State.draws), readByte_state_of_not_delegated h]
  intro u v
  rw [Result.state_ok, MemOperand.post_preserves (g := State.draws) (fun u v => State.setPair_draws u _ v),
    State.setSlot_draws]

@[simp] theorem loadByte_draws (r : Slot) (d : Byte) (s : State) : (loadByte r d s).state.draws = s.draws :=
  State.setSlot_draws s r d

@[simp] theorem WordOperand.set_draws (w : WordOperand) (v : Word) (s : State) : (w.set v s).draws = s.draws :=
  WordOperand.set_preserves (g := State.draws) (fun u p v _ => State.setPair_draws u p v) (fun _ _ _ => rfl) v s

@[simp] theorem loadWord_draws (w : WordOperand) (v : Word) (s : State) : (loadWord w v s).state.draws = s.draws :=
  w.set_draws v s

@[simp] theorem incWord_draws (w : WordOperand) (s : State) : (incWord w s).state.draws = s.draws := w.set_draws _ s

@[simp] theorem decWord_draws (w : WordOperand) (s : State) : (decWord w s).state.draws = s.draws := w.set_draws _ s

@[simp] theorem incSlot_draws (r : Slot) (s : State) : (incSlot r s).state.draws = s.draws :=
  incSlot_preserves (g := State.draws) (fun u v => State.setFlag_draws u _ v) (fun u v => State.setFlag_draws u _ v)
    (fun u v => State.setFlag_draws u _ v) (fun u v => State.setSlot_draws u _ v) s

@[simp] theorem decSlot_draws (r : Slot) (s : State) : (decSlot r s).state.draws = s.draws :=
  decSlot_preserves (g := State.draws) (fun u v => State.setFlag_draws u _ v) (fun u v => State.setFlag_draws u _ v)
    (fun u v => State.setFlag_draws u _ v) (fun u v => State.setSlot_draws u _ v) s

theorem subFromA_draws {x : Source} {s : State} (h : x = .memHl → s.delegated (s.pair .hl) = false) :
    (subFromA x s).state.draws = s.draws := by
  unfold subFromA
  rw [Result.bind_preserves (g := State.draws), Source.read_state_of_not_delegated h]
  intros; simp [subtract]

theorem xorIntoA_draws {x : Source} {s : State} (h : x = .memHl → s.delegated (s.pair .hl) = false) :
    (xorIntoA x s).state.draws = s.draws := by
  unfold xorIntoA
  rw [Result.bind_preserves (g := State.draws), Source.read_state_of_not_delegated h]
  intros; simp [exclusiveOr]

theorem compareA_draws {x : Source} {s : State} (h : x = .memHl → s.delegated (s.pair .hl) = false) :
    (compareA x s).state.draws = s.draws := by
  unfold compareA
  rw [Result.bind_preserves (g := State.draws), Source.read_state_of_not_delegated h]
  intros; simp [subtract]

theorem rotateSlot_draws (r : Slot) {s : State} (h : s.config.rlNH ≠ .draw) : (rotateSlot r s).state.draws = s.draws := by
  simp only [rotateSlot, shiftLeft, Result.state_ok, State.setSlot_draws]
  unfold rotateNH
  cases hm : s.config.rlNH
  · exact absurd hm h
  all_goals simp [hm]

@[simp] theorem jumpRelative_draws (k : Cond) (o : Byte) (s : State) : (jumpRelative k o s).state.draws = s.draws :=
  jumpRelative_preserves (g := State.draws) (fun _ _ => rfl) k o s

@[simp] theorem jumpAbsolute_draws (k : Cond) (t : Word) (s : State) : (jumpAbsolute k t s).state.draws = s.draws :=
  jumpAbsolute_preserves (g := State.draws) (fun _ _ => rfl) k t s

@[simp] theorem callTo_draws (t : Word) (s : State) : (callTo t s).state.draws = s.draws :=
  callTo_preserves (g := State.draws) (fun u _ _ _ => State.store_draws u _ _) (fun _ _ => rfl) (fun _ _ => rfl) t

@[simp] theorem pushPair_draws (p : Pair) (s : State) : (pushPair p s).state.draws = s.draws :=
  pushPair_preserves (g := State.draws) (fun u _ _ _ => State.store_draws u _ _) (fun _ _ => rfl) p

theorem returnToCaller_draws {s : State} (h : s.delegated (s.sp + 1) = false) (h' : s.delegated (s.sp + 2) = false) :
    (returnToCaller s).state.draws = s.draws := by
  unfold returnToCaller
  rw [Result.bind_preserves (g := State.draws), pop_draws h h']
  intros; rfl

theorem popPair_draws (p : Pair) {s : State} (h : s.delegated (s.sp + 1) = false) (h' : s.delegated (s.sp + 2) = false) :
    (popPair p s).state.draws = s.draws := by
  unfold popPair
  rw [Result.bind_preserves (g := State.draws), pop_draws h h']
  intros; simp

/-! ### Instructions -/

/-- No instruction changes the configuration (10_state.md R34; 20_memory.md R54). -/
theorem bodyOf_config (i : Instr) (s : State) : (bodyOf i s).state.config = s.config := by
  cases i <;> simp only [bodyOf, storeSlot_config, loadSlot_config, loadByte_config, loadWord_config, incWord_config, decWord_config,
    incSlot_config, decSlot_config, subFromA_config, xorIntoA_config, compareA_config, rotateSlot_config, jumpRelative_config,
    jumpAbsolute_config, callTo_config, returnToCaller_config, pushPair_config, popPair_config, escapeTo_config, Result.state_ok]

/-- The sub-steps of an instruction leave the status; only taking a fault writes it (60_exceptions.md R301). -/
theorem bodyOf_status (i : Instr) (s : State) : (bodyOf i s).state.status = s.status := by
  cases i <;> simp only [bodyOf, storeSlot_status, loadSlot_status, loadByte_status, loadWord_status, incWord_status, decWord_status,
    incSlot_status, decSlot_status, subFromA_status, xorIntoA_status, compareA_status, rotateSlot_status, jumpRelative_status,
    jumpAbsolute_status, callTo_status, returnToCaller_status, pushPair_status, popPair_status, escapeTo_status, Result.state_ok]

end Sys2Proof.Machine
end

