-- ==== Sys2Proof/Laws/PerInstr.lean ====
section
/-! SUPPORT. One lemma per instruction: the encoder writes as many bytes as the instruction is long (30_encoding.md R85). -/

/-- The encoding of an instruction has the instruction's length. -/
def Sys2Proof.Laws.EncodeLength.Statement (i : Sys2Proof.Instr) : Prop :=
  (Sys2Proof.encode i).length = i.length

namespace Sys2Proof.Laws.EncodeLength

theorem nop : Statement .nop := rfl
theorem ldBcD16 (v : Word) : Statement (.ldBcD16 v) := rfl
theorem ldMemBcA : Statement .ldMemBcA := rfl
theorem incBc : Statement .incBc := rfl
theorem incB : Statement .incB := rfl
theorem decB : Statement .decB := rfl
theorem ldBD8 (d : Byte) : Statement (.ldBD8 d) := rfl
theorem ldAMemBc : Statement .ldAMemBc := rfl
theorem decBc : Statement .decBc := rfl
theorem incC : Statement .incC := rfl
theorem decC : Statement .decC := rfl
theorem ldCD8 (d : Byte) : Statement (.ldCD8 d) := rfl
theorem ldDeD16 (v : Word) : Statement (.ldDeD16 v) := rfl
theorem ldMemDeA : Statement .ldMemDeA := rfl
theorem incDe : Statement .incDe := rfl
theorem incD : Statement .incD := rfl
theorem decD : Statement .decD := rfl
theorem ldDD8 (d : Byte) : Statement (.ldDD8 d) := rfl
theorem rla : Statement .rla := rfl
theorem jr (o : Byte) : Statement (.jr o) := rfl
theorem ldAMemDe : Statement .ldAMemDe := rfl
theorem decDe : Statement .decDe := rfl
theorem incE : Statement .incE := rfl
theorem decE : Statement .decE := rfl
theorem ldED8 (d : Byte) : Statement (.ldED8 d) := rfl
theorem jrNz (o : Byte) : Statement (.jrNz o) := rfl
theorem ldHlD16 (v : Word) : Statement (.ldHlD16 v) := rfl
theorem ldMemHlIncA : Statement .ldMemHlIncA := rfl
theorem incHl : Statement .incHl := rfl
theorem incH : Statement .incH := rfl
theorem decH : Statement .decH := rfl
theorem ldHD8 (d : Byte) : Statement (.ldHD8 d) := rfl
theorem jrZ (o : Byte) : Statement (.jrZ o) := rfl
theorem ldAMemHlInc : Statement .ldAMemHlInc := rfl
theorem decHl : Statement .decHl := rfl
theorem incL : Statement .incL := rfl
theorem decL : Statement .decL := rfl
theorem ldLD8 (d : Byte) : Statement (.ldLD8 d) := rfl
theorem jrNc (o : Byte) : Statement (.jrNc o) := rfl
theorem ldSpD16 (v : Word) : Statement (.ldSpD16 v) := rfl
theorem ldMemHlDecA : Statement .ldMemHlDecA := rfl
theorem incSp : Statement .incSp := rfl
theorem jrC (o : Byte) : Statement (.jrC o) := rfl
theorem ldAMemHlDec : Statement .ldAMemHlDec := rfl
theorem decSp : Statement .decSp := rfl
theorem incA : Statement .incA := rfl
theorem decA : Statement .decA := rfl
theorem ldAD8 (d : Byte) : Statement (.ldAD8 d) := rfl
theorem ldBMemHl : Statement .ldBMemHl := rfl
theorem ldCMemHl : Statement .ldCMemHl := rfl
theorem ldDMemHl : Statement .ldDMemHl := rfl
theorem ldEMemHl : Statement .ldEMemHl := rfl
theorem ldHMemHl : Statement .ldHMemHl := rfl
theorem ldLMemHl : Statement .ldLMemHl := rfl
theorem ldMemHlB : Statement .ldMemHlB := rfl
theorem ldMemHlC : Statement .ldMemHlC := rfl
theorem ldMemHlD : Statement .ldMemHlD := rfl
theorem ldMemHlE : Statement .ldMemHlE := rfl
theorem ldMemHlH : Statement .ldMemHlH := rfl
theorem ldMemHlL : Statement .ldMemHlL := rfl
theorem ldMemHlA : Statement .ldMemHlA := rfl
theorem ldAMemHl : Statement .ldAMemHl := rfl
theorem subB : Statement .subB := rfl
theorem subC : Statement .subC := rfl
theorem subD : Statement .subD := rfl
theorem subE : Statement .subE := rfl
theorem subH : Statement .subH := rfl
theorem subL : Statement .subL := rfl
theorem subMemHl : Statement .subMemHl := rfl
theorem subA : Statement .subA := rfl
theorem xorB : Statement .xorB := rfl
theorem xorC : Statement .xorC := rfl
theorem xorD : Statement .xorD := rfl
theorem xorE : Statement .xorE := rfl
theorem xorH : Statement .xorH := rfl
theorem xorL : Statement .xorL := rfl
theorem xorMemHl : Statement .xorMemHl := rfl
theorem xorA : Statement .xorA := rfl
theorem cpB : Statement .cpB := rfl
theorem cpC : Statement .cpC := rfl
theorem cpD : Statement .cpD := rfl
theorem cpE : Statement .cpE := rfl
theorem cpH : Statement .cpH := rfl
theorem cpL : Statement .cpL := rfl
theorem cpMemHl : Statement .cpMemHl := rfl
theorem cpA : Statement .cpA := rfl
theorem popBc : Statement .popBc := rfl
theorem jpNz (t : Word) : Statement (.jpNz t) := rfl
theorem jp (t : Word) : Statement (.jp t) := rfl
theorem pushBc : Statement .pushBc := rfl
theorem ret : Statement .ret := rfl
theorem jpZ (t : Word) : Statement (.jpZ t) := rfl
theorem cbPrefix (b : Byte) : Statement (.cbPrefix b) := rfl
theorem call (t : Word) : Statement (.call t) := rfl
theorem popDe : Statement .popDe := rfl
theorem jpNc (t : Word) : Statement (.jpNc t) := rfl
theorem pushDe : Statement .pushDe := rfl
theorem subD8 (d : Byte) : Statement (.subD8 d) := rfl
theorem jpC (t : Word) : Statement (.jpC t) := rfl
theorem ldhMemA (o : Byte) : Statement (.ldhMemA o) := rfl
theorem popHl : Statement .popHl := rfl
theorem ldMemCA : Statement .ldMemCA := rfl
theorem pushHl : Statement .pushHl := rfl
theorem xorD8 (d : Byte) : Statement (.xorD8 d) := rfl
theorem ldhAMem (o : Byte) : Statement (.ldhAMem o) := rfl
theorem popAf : Statement .popAf := rfl
theorem ldAMemC : Statement .ldAMemC := rfl
theorem pushAf : Statement .pushAf := rfl
theorem cpD8 (d : Byte) : Statement (.cpD8 d) := rfl
theorem rlB : Statement .rlB := rfl
theorem rlC : Statement .rlC := rfl
theorem rlD : Statement .rlD := rfl
theorem rlE : Statement .rlE := rfl
theorem rlH : Statement .rlH := rfl
theorem rlL : Statement .rlL := rfl
theorem rlA : Statement .rlA := rfl

end Sys2Proof.Laws.EncodeLength
end

