-- ==== Sys2Proof/Laws/Step.lean ====
section
/-! SUPPORT. The laws of fetching and of a step (30_encoding.md R88 to R90), and how reads and stores commute with moving PC. -/

namespace Sys2Proof.Machine

/-! ### The state after a fetch's reads -/

@[simp] theorem State.afterFetch_pc (s : State) (n : Nat) : (s.afterFetch n).pc = s.pc := by
  induction n <;> simp_all [State.afterFetch]

@[simp] theorem State.afterFetch_regs (s : State) (n : Nat) : (s.afterFetch n).regs = s.regs := by
  induction n <;> simp_all [State.afterFetch]

@[simp] theorem State.afterFetch_sp (s : State) (n : Nat) : (s.afterFetch n).sp = s.sp := by
  induction n <;> simp_all [State.afterFetch]

@[simp] theorem State.afterFetch_config (s : State) (n : Nat) : (s.afterFetch n).config = s.config := by
  induction n <;> simp_all [State.afterFetch]

@[simp] theorem State.afterFetch_mem (s : State) (n : Nat) : (s.afterFetch n).mem = s.mem := by
  induction n <;> simp_all [State.afterFetch]

@[simp] theorem State.afterFetch_status (s : State) (n : Nat) : (s.afterFetch n).status = s.status := by
  induction n <;> simp_all [State.afterFetch]

@[simp] theorem State.afterFetch_mapped (s : State) (n : Nat) (a : Word) : (s.afterFetch n).mapped a = s.mapped a :=
  State.mapped_congr (by simp) a

/-- A fetch's reads change the count of free values alone. -/
theorem State.afterFetch_eq (s : State) (n : Nat) : s.afterFetch n = { s with draws := (s.afterFetch n).draws } := by
  induction n with
  | zero => rfl
  | succ n ih =>
    simp only [State.afterFetch, State.afterRead]
    split
    · conv => lhs; rw [ih]
    · exact ih

/-- Where no arbitrary collaborator supplies the bytes, a fetch's reads change nothing. -/
theorem State.afterFetch_of_not_delegated {s : State} {n : Nat} (h : ∀ k < n, s.delegated (s.pc + BitVec.ofNat 16 k) = false) : s.afterFetch n = s := by
  induction n with
  | zero => rfl
  | succ n ih =>
    have := ih (fun k hk => h k (by omega))
    simp only [State.afterFetch, this, State.afterRead, h n (by omega)]; rfl

/-! ### Reads, stores and operands do not look at PC -/

theorem State.afterRead_advance (s : State) (n a : Word) : (s.advance n).afterRead a = (s.afterRead a).advance n := by
  unfold State.afterRead; simp only [State.delegated_advance]; split <;> rfl

theorem State.readValue_advance (s : State) (n a : Word) : (s.advance n).readValue a = s.readValue a :=
  State.readValue_congr (by simp) (by simp) (by simp) a

theorem State.advance_advance (s : State) (n m : Word) : (s.advance n).advance m = s.advance (n + m) := by
  simp [State.advance, BitVec.add_assoc]

theorem State.store_advance (s : State) (n a : Word) (v : Byte) : (s.advance n).store a v = (s.store a v).advance n := by
  unfold State.store; simp only [State.delegated_advance]; split <;> rfl

theorem MemOperand.address_advance (m : MemOperand) (s : State) (n : Word) : m.address (s.advance n) = m.address s := by
  cases m <;> rfl

theorem Source.value_advance (x : Source) (s : State) (n : Word) : x.value (s.advance n) = x.value s := by
  cases x
  · rfl
  · exact State.readValue_advance s n _
  · rfl

theorem Source.after_advance (x : Source) (s : State) (n : Word) : x.after (s.advance n) = (x.after s).advance n := by
  cases x
  · rfl
  · exact State.afterRead_advance s n _
  · rfl

theorem Source.readable_advance (x : Source) (s : State) (n : Word) : x.readable (s.advance n) = x.readable s := by
  cases x <;> simp [Source.readable]

theorem Source.after_slot (x : Source) (s : State) (q : Slot) : (x.after s).slot q = s.slot q := by
  cases x <;> simp [Source.after]

theorem Source.after_flag (x : Source) (s : State) (q : Flag) : (x.after s).flag q = s.flag q := by
  cases x <;> simp [Source.after]

theorem Source.after_pc (x : Source) (s : State) : (x.after s).pc = s.pc := by
  cases x <;> simp [Source.after]

/-! ### Fetching -/

theorem State.codeByte_zero (s : State) : s.codeByte 0 = s.readValue s.pc := by simp [State.codeByte, State.afterFetch]

theorem State.afterFetch_one (s : State) : s.afterFetch 1 = s.afterRead s.pc := by simp [State.afterFetch]

theorem fetch_eq {s : State} (h : s.mapped s.pc = true) : fetch s =
  match primaryEntry (s.codeByte 0) with
  | none => .raise (.illegalOpcode (s.codeByte 0) false) ((s.afterFetch 1).advance 1)
  | some (.plain i) => .ok i ((s.afterFetch 1).advance 1)
  | some (.imm8 mk) => (imm8 ((s.afterFetch 1).advance 1)).bind fun d s3 => .ok (mk d) s3
  | some (.imm16 mk) => (imm16 ((s.afterFetch 1).advance 1)).bind fun v s3 => .ok (mk v) s3
  | some .escape => (imm8 ((s.afterFetch 1).advance 1)).bind fun b2 s3 => .ok (decodeEscaped b2) s3 := by
  unfold fetch
  rw [readByte_ok h, Result.bind_ok, State.codeByte_zero, State.afterFetch_one] <;> rfl

theorem imm8_ok {s : State} (h : s.mapped (s.pc + 1) = true) :
   imm8 ((s.afterFetch 1).advance 1) = .ok (s.codeByte 1) ((s.afterFetch 2).advance 2) := by
  have h' : ((s.afterFetch 1).advance 1).mapped ((s.afterFetch 1).advance 1).pc = true := by simpa using h
  unfold imm8
  rw [readByte_ok h', Result.bind_ok, State.afterRead_advance, State.readValue_advance, State.advance_advance]
  simp only [State.advance_pc, State.afterFetch_pc]
  rfl

theorem imm8_raise {s : State} (h : s.mapped (s.pc + 1) = false) :
   imm8 ((s.afterFetch 1).advance 1) = .raise (.unmappedAddress (s.pc + 1)) ((s.afterFetch 1).advance 1) := by
  have h' : ((s.afterFetch 1).advance 1).mapped ((s.afterFetch 1).advance 1).pc = false := by simpa using h
  unfold imm8
  rw [readByte_raise h', Result.bind_raise]
  simp only [State.advance_pc, State.afterFetch_pc]

theorem imm16_ok {s : State} (h : s.mapped (s.pc + 1) = true) (h2 : s.mapped (s.pc + 2) = true) :
   imm16 ((s.afterFetch 1).advance 1) = .ok (cat (s.codeByte 2) (s.codeByte 1)) ((s.afterFetch 3).advance 3) := by
  have h' : ((s.afterFetch 1).advance 1).mapped ((s.afterFetch 1).advance 1).pc = true := by simpa using h
  have h'' : ((s.afterFetch 1).advance 1).mapped (((s.afterFetch 1).advance 1).pc + 1) = true := by
    simp only [State.advance_pc, State.afterFetch_pc, add_one_add_one]; simpa using h2
  unfold imm16
  rw [readWord_ok h' h'', Result.bind_ok]
  simp only [State.afterRead_advance, State.readValue_advance, State.advance_advance]
  simp only [State.advance_pc, State.afterFetch_pc, add_one_add_one]
  rfl

theorem imm16_raise_first {s : State} (h : s.mapped (s.pc + 1) = false) :
   imm16 ((s.afterFetch 1).advance 1) = .raise (.unmappedAddress (s.pc + 1)) ((s.afterFetch 1).advance 1) := by
  have h' : ((s.afterFetch 1).advance 1).mapped ((s.afterFetch 1).advance 1).pc = false := by simpa using h
  unfold imm16
  rw [readWord_raise_first h', Result.bind_raise]
  simp only [State.advance_pc, State.afterFetch_pc]

theorem imm16_raise_second {s : State} (h : s.mapped (s.pc + 1) = true) (h2 : s.mapped (s.pc + 2) = false) :
   imm16 ((s.afterFetch 1).advance 1) = .raise (.unmappedAddress (s.pc + 2)) ((s.afterFetch 2).advance 1) := by
  have h' : ((s.afterFetch 1).advance 1).mapped ((s.afterFetch 1).advance 1).pc = true := by simpa using h
  have h'' : ((s.afterFetch 1).advance 1).mapped (((s.afterFetch 1).advance 1).pc + 1) = false := by
    simp only [State.advance_pc, State.afterFetch_pc, add_one_add_one]; simpa using h2
  unfold imm16
  rw [readWord_raise_second h' h'', Result.bind_raise]
  simp only [State.afterRead_advance, State.advance_pc, State.afterFetch_pc, add_one_add_one]
  rfl

/-! ### Steps -/

/-- A fetch or decode that raises: the fault is taken in the state the earlier sub-steps left (60_exceptions.md R302). -/
theorem step_raise {s s1 : State} {k : FaultKind} (hr : s.status = .running) (h : fetch s = .raise k s1) :
   step s = .next (enterFault k s.pc s1) := by simp only [step, hr, h]

/-- A fetch that completes: the instruction runs from its own address. -/
theorem step_ok {s s1 : State} {i : Instr} (hr : s.status = .running) (h : fetch s = .ok i s1) :
   step s = exec i (s1.setPc s.pc) := by simp only [step, hr, h]

theorem enterFault_afterFetch (s : State) (n : Nat) (w : Word) (k : FaultKind) : enterFault k s.pc ((s.afterFetch n).advance w) = (s.afterFetch n).faultedAt w k := by
  simp [enterFault, State.faultedAt, State.advance]

theorem setPc_afterFetch (s : State) (n : Nat) (w : Word) : ((s.afterFetch n).advance w).setPc s.pc = s.afterFetch n := by
  conv => rhs; rw [show s.afterFetch n = { s.afterFetch n with pc := (s.afterFetch n).pc } from rfl, State.afterFetch_pc]
  rfl

end Sys2Proof.Machine
end

