-- ==== Sys2Proof/Tests/Slice0.lean ====
section
/-! SUPPORT. The model's own tests: ill-formed terms, words written out from the rules' encodings, the rules' own examples and the
vectors of spec/95_test_vectors.md, each one step, and a witness for every statement that has hypotheses. Where an example leaves
N and H to `draw`, the test runs under `P_RL_NH` = Cleared. -/

namespace Sys2Proof.Machine

/-- A state with one byte of memory set. -/
def State.poke (s : State) (a : Word) (v : Byte) : State := { s with mem := s.mem.set a.toNat v }

/-- A state with `P_RL_NH` = Cleared. -/
def State.clearing (s : State) : State := { s with config := { s.config with rlNH := .cleared } }

/-- A state with `P_RL_NH` = Unchanged. -/
def State.keeping (s : State) : State := { s with config := { s.config with rlNH := .unchanged } }

/-- A state with an arbitrary I/O collaborator. -/
def State.delegating (s : State) : State := { s with config := { s.config with io := .arbitrary } }

end Sys2Proof.Machine

namespace Sys2Proof.Tests

open Sys2Proof.Machine

/-- The reset state with PC and the bytes from PC upwards, as the vectors' conventions say. -/
def start (pc : Word) (bytes : List Byte) : State := { State.reset with pc := pc, mem := placeBytes pc bytes [] }

/-- What is seen of the state an outcome leads to. -/
def seenOf {α : Type} (o : Host.Outcome State Fault Refusal) (f : State → α) : Option α :=
  match o with
  | .next t => some (f t)
  | .fault _ => none
  | .refused _ => none

/-- What is seen of the state one step leads to. -/
def seen {α : Type} (s : State) (f : State → α) : Option α := seenOf (step s) f

/-- Every byte list decodes to its instruction, with no byte left. -/
def allDecode (ps : List (List Byte × Instr)) : Bool :=
  ps.all fun p =>
    match decode p.1 with
    | .ok (i, []) => i == p.2
    | .ok (_, _ :: _) => false
    | .error _ => false

/-! ## Ill-formed terms -/

/-- The one check of `Instr.wf`: the PREFIX marker does not stand before a byte that has a secondary entry. -/
theorem test_illFormedPrefix :
    (Instr.cbPrefix 0x10).wf = false ∧ (Instr.cbPrefix 0x15).wf = false ∧ (Instr.cbPrefix 0x17).wf = false ∧
      (Instr.cbPrefix 0x16).wf = true ∧ (Instr.cbPrefix 0x0F).wf = true ∧ (Instr.cbPrefix 0x18).wf = true := by
  decide

/-! ## Decoding: words written out from the rules' encodings -/

theorem test_decodeNoOperation :
    allDecode
    [([0x00], .nop)] = true := by
  decide

theorem test_decodeLoads :
    allDecode
    [([0x01, 0x34, 0x12], .ldBcD16 0x1234), ([0x02], .ldMemBcA), ([0x06, 0x34], .ldBD8 0x34), ([0x0A], .ldAMemBc),
     ([0x0E, 0x34], .ldCD8 0x34), ([0x11, 0x34, 0x12], .ldDeD16 0x1234), ([0x12], .ldMemDeA),
     ([0x16, 0x34], .ldDD8 0x34), ([0x1A], .ldAMemDe), ([0x1E, 0x34], .ldED8 0x34),
     ([0x21, 0x34, 0x12], .ldHlD16 0x1234), ([0x22], .ldMemHlIncA), ([0x26, 0x34], .ldHD8 0x34),
     ([0x2A], .ldAMemHlInc), ([0x2E, 0x34], .ldLD8 0x34), ([0x31, 0x34, 0x12], .ldSpD16 0x1234),
     ([0x32], .ldMemHlDecA), ([0x3A], .ldAMemHlDec), ([0x3E, 0x34], .ldAD8 0x34), ([0x46], .ldBMemHl),
     ([0x4E], .ldCMemHl), ([0x56], .ldDMemHl), ([0x5E], .ldEMemHl), ([0x66], .ldHMemHl), ([0x6E], .ldLMemHl),
     ([0x70], .ldMemHlB), ([0x71], .ldMemHlC), ([0x72], .ldMemHlD), ([0x73], .ldMemHlE), ([0x74], .ldMemHlH),
     ([0x75], .ldMemHlL), ([0x77], .ldMemHlA), ([0x7E], .ldAMemHl), ([0xE0, 0x34], .ldhMemA 0x34),
     ([0xE2], .ldMemCA), ([0xF0, 0x34], .ldhAMem 0x34), ([0xF2], .ldAMemC)] = true := by
  decide

theorem test_decodeIncrementsAndDecrements :
    allDecode
    [([0x03], .incBc), ([0x04], .incB), ([0x05], .decB), ([0x0B], .decBc), ([0x0C], .incC), ([0x0D], .decC),
     ([0x13], .incDe), ([0x14], .incD), ([0x15], .decD), ([0x1B], .decDe), ([0x1C], .incE), ([0x1D], .decE),
     ([0x23], .incHl), ([0x24], .incH), ([0x25], .decH), ([0x2B], .decHl), ([0x2C], .incL), ([0x2D], .decL),
     ([0x33], .incSp), ([0x3B], .decSp), ([0x3C], .incA), ([0x3D], .decA)] = true := by
  decide

theorem test_decodeRotates :
    allDecode
    [([0x17], .rla), ([0xCB, 0x10], .rlB), ([0xCB, 0x11], .rlC), ([0xCB, 0x12], .rlD), ([0xCB, 0x13], .rlE),
     ([0xCB, 0x14], .rlH), ([0xCB, 0x15], .rlL), ([0xCB, 0x17], .rlA)] = true := by
  decide

theorem test_decodeJumpsAndCalls :
    allDecode
    [([0x18, 0x34], .jr 0x34), ([0x20, 0x34], .jrNz 0x34), ([0x28, 0x34], .jrZ 0x34), ([0x30, 0x34], .jrNc 0x34),
     ([0x38, 0x34], .jrC 0x34), ([0xC2, 0x34, 0x12], .jpNz 0x1234), ([0xC3, 0x34, 0x12], .jp 0x1234), ([0xC9], .ret),
     ([0xCA, 0x34, 0x12], .jpZ 0x1234), ([0xCD, 0x34, 0x12], .call 0x1234), ([0xD2, 0x34, 0x12], .jpNc 0x1234),
     ([0xDA, 0x34, 0x12], .jpC 0x1234)] = true := by
  decide

theorem test_decodeSubtractXorCompare :
    allDecode
    [([0x90], .subB), ([0x91], .subC), ([0x92], .subD), ([0x93], .subE), ([0x94], .subH), ([0x95], .subL),
     ([0x96], .subMemHl), ([0x97], .subA), ([0xA8], .xorB), ([0xA9], .xorC), ([0xAA], .xorD), ([0xAB], .xorE),
     ([0xAC], .xorH), ([0xAD], .xorL), ([0xAE], .xorMemHl), ([0xAF], .xorA), ([0xB8], .cpB), ([0xB9], .cpC),
     ([0xBA], .cpD), ([0xBB], .cpE), ([0xBC], .cpH), ([0xBD], .cpL), ([0xBE], .cpMemHl), ([0xBF], .cpA),
     ([0xD6, 0x34], .subD8 0x34), ([0xEE, 0x34], .xorD8 0x34), ([0xFE, 0x34], .cpD8 0x34)] = true := by
  decide

theorem test_decodeStack :
    allDecode
    [([0xC1], .popBc), ([0xC5], .pushBc), ([0xD1], .popDe), ([0xD5], .pushDe), ([0xE1], .popHl), ([0xE5], .pushHl),
     ([0xF1], .popAf), ([0xF5], .pushAf)] = true := by
  decide

/-! ## One step of each instruction: its rule's example, and a corner of spec/95_test_vectors.md -/

/-- The example of R240. -/
theorem test_nop :
    seen (start 0xC000 [0x00]) (fun t => (t.pc, t.slot .f, t.status)) =
      some (0xC001, 0x00, .running) := by
  decide

/-- V45-02. -/
theorem test_nop_corner :
    seen (start 0x3FFF [0x00]) (fun t => (t.pc, t.slot .f, t.status)) =
      some (0x4000, 0x00, .running) := by
  decide

/-- The example of R108. -/
theorem test_ldBcD16 :
    seen (start 0xC000 [0x01, 0x34, 0x12]) (fun t => (t.pc, t.slot .f, t.slot .b, t.slot .c, t.status)) =
      some (0xC003, 0x00, 0x12, 0x34, .running) := by
  decide

/-- The example of R112. -/
theorem test_ldMemBcA :
    seen ((((start 0xC000 [0x02]).setPair .bc 0xC100).setSlot .a 0x42).poke 0xC100 0x99)
        (fun t => (t.pc, t.slot .f, t.peek 0xC100, t.status)) =
      some (0xC001, 0x00, 0x42, .running) := by
  decide

/-- V40-07. -/
theorem test_ldMemBcA_corner :
    seen (((start 0xC000 [0x02]).setPair .bc 0x0000).setSlot .a 0x5A) (fun t => (t.pc, t.slot .f, t.status)) =
      some (0xC001, 0x00, .faulted { kind := .readOnlyViolation 0x0000, pcStart := 0xC000 }) := by
  decide

/-- The example of R191. -/
theorem test_incBc :
    seen ((start 0xC000 [0x03]).setPair .bc 0x00FF) (fun t => (t.pc, t.slot .f, t.slot .b, t.slot .c, t.status)) =
      some (0xC001, 0x00, 0x01, 0x00, .running) := by
  decide

/-- V43-10. -/
theorem test_incBc_corner :
    seen ((start 0xC000 [0x03]).setPair .bc 0xFFFF) (fun t => (t.pc, t.slot .f, t.slot .b, t.slot .c, t.status)) =
      some (0xC001, 0x00, 0x00, 0x00, .running) := by
  decide

/-- The example of R177. -/
theorem test_incB :
    seen ((start 0xC000 [0x04]).setSlot .b 0x0F) (fun t => (t.pc, t.slot .f, t.slot .b, t.status)) =
      some (0xC001, 0x20, 0x10, .running) := by
  decide

/-- V43-01. -/
theorem test_incB_corner :
    seen (((start 0xC000 [0x04]).setSlot .b 0xFF).setSlot .f 0x10) (fun t => (t.pc, t.slot .f, t.slot .b, t.status)) =
      some (0xC001, 0xB0, 0x00, .running) := by
  decide

/-- The example of R184. -/
theorem test_decB :
    seen ((start 0xC000 [0x05]).setSlot .b 0x01) (fun t => (t.pc, t.slot .f, t.slot .b, t.status)) =
      some (0xC001, 0xC0, 0x00, .running) := by
  decide

/-- The example of R101. -/
theorem test_ldBD8 :
    seen ((start 0xC000 [0x06, 0x7F]).setSlot .b 0x00) (fun t => (t.pc, t.slot .f, t.slot .b, t.status)) =
      some (0xC002, 0x00, 0x7F, .running) := by
  decide

/-- The example of R116. -/
theorem test_ldAMemBc :
    seen ((((start 0xC000 [0x0A]).setPair .bc 0xC100).setSlot .a 0x00).poke 0xC100 0x99)
        (fun t => (t.pc, t.slot .f, t.slot .a, t.status)) =
      some (0xC001, 0x00, 0x99, .running) := by
  decide

/-- V40-15. -/
theorem test_ldAMemBc_corner :
    seen (((start 0xC000 [0x0A]).setPair .bc 0xFF4B).poke 0xFF4B 0x7E)
        (fun t => (t.pc, t.slot .f, t.slot .a, t.status)) =
      some (0xC001, 0x00, 0x7E, .running) := by
  decide

/-- The example of R192. -/
theorem test_decBc :
    seen ((start 0xC000 [0x0B]).setPair .bc 0x00FF) (fun t => (t.pc, t.slot .f, t.slot .c, t.status)) =
      some (0xC001, 0x00, 0xFE, .running) := by
  decide

/-- The example of R178. -/
theorem test_incC :
    seen ((start 0xC000 [0x0C]).setSlot .c 0x0F) (fun t => (t.pc, t.slot .f, t.slot .c, t.status)) =
      some (0xC001, 0x20, 0x10, .running) := by
  decide

/-- V43-02. -/
theorem test_incC_corner :
    seen ((start 0xC000 [0x0C]).setSlot .c 0x0F) (fun t => (t.pc, t.slot .f, t.slot .c, t.status)) =
      some (0xC001, 0x20, 0x10, .running) := by
  decide

/-- The example of R185. -/
theorem test_decC :
    seen ((start 0xC000 [0x0D]).setSlot .c 0x01) (fun t => (t.pc, t.slot .f, t.slot .c, t.status)) =
      some (0xC001, 0xC0, 0x00, .running) := by
  decide

/-- V43-06. -/
theorem test_decC_corner :
    seen ((start 0xC000 [0x0D]).setSlot .c 0x00) (fun t => (t.pc, t.slot .f, t.slot .c, t.status)) =
      some (0xC001, 0x60, 0xFF, .running) := by
  decide

/-- The example of R102. -/
theorem test_ldCD8 :
    seen ((start 0xC000 [0x0E, 0x7F]).setSlot .c 0x00) (fun t => (t.pc, t.slot .f, t.slot .c, t.status)) =
      some (0xC002, 0x00, 0x7F, .running) := by
  decide

/-- The example of R109. -/
theorem test_ldDeD16 :
    seen (start 0xC000 [0x11, 0x34, 0x12]) (fun t => (t.pc, t.slot .f, t.slot .d, t.slot .e, t.status)) =
      some (0xC003, 0x00, 0x12, 0x34, .running) := by
  decide

/-- The example of R113. -/
theorem test_ldMemDeA :
    seen ((((start 0xC000 [0x12]).setPair .de 0xC100).setSlot .a 0x42).poke 0xC100 0x99)
        (fun t => (t.pc, t.slot .f, t.peek 0xC100, t.status)) =
      some (0xC001, 0x00, 0x42, .running) := by
  decide

/-- V40-08. -/
theorem test_ldMemDeA_corner :
    seen (((start 0xC000 [0x12]).setPair .de 0xA000).setSlot .a 0x5A) (fun t => (t.pc, t.slot .f, t.status)) =
      some (0xC001, 0x00, .faulted { kind := .unmappedAddress 0xA000, pcStart := 0xC000 }) := by
  decide

/-- The example of R193. -/
theorem test_incDe :
    seen ((start 0xC000 [0x13]).setPair .de 0x00FF) (fun t => (t.pc, t.slot .f, t.slot .d, t.slot .e, t.status)) =
      some (0xC001, 0x00, 0x01, 0x00, .running) := by
  decide

/-- The example of R179. -/
theorem test_incD :
    seen ((start 0xC000 [0x14]).setSlot .d 0x0F) (fun t => (t.pc, t.slot .f, t.slot .d, t.status)) =
      some (0xC001, 0x20, 0x10, .running) := by
  decide

/-- The example of R186. -/
theorem test_decD :
    seen ((start 0xC000 [0x15]).setSlot .d 0x01) (fun t => (t.pc, t.slot .f, t.slot .d, t.status)) =
      some (0xC001, 0xC0, 0x00, .running) := by
  decide

/-- V43-07. -/
theorem test_decD_corner :
    seen ((start 0xC000 [0x15]).setSlot .d 0x10) (fun t => (t.pc, t.slot .f, t.slot .d, t.status)) =
      some (0xC001, 0x60, 0x0F, .running) := by
  decide

/-- The example of R103. -/
theorem test_ldDD8 :
    seen ((start 0xC000 [0x16, 0x7F]).setSlot .d 0x00) (fun t => (t.pc, t.slot .f, t.slot .d, t.status)) =
      some (0xC002, 0x00, 0x7F, .running) := by
  decide

/-- The example of R231. -/
theorem test_rla :
    seen ((((start 0xC000 [0x17]).clearing).setSlot .a 0x95).setSlot .f 0x10)
        (fun t => (t.pc, t.slot .f, t.slot .a, t.status)) =
      some (0xC001, 0x10, 0x2B, .running) := by
  decide

/-- V44-01. -/
theorem test_rla_corner :
    seen (((start 0xC000 [0x17]).clearing).setSlot .a 0x80) (fun t => (t.pc, t.slot .f, t.slot .a, t.status)) =
      some (0xC001, 0x90, 0x00, .running) := by
  decide

/-- The example of R141. -/
theorem test_jr :
    seen (start 0xC000 [0x18, 0xFE]) (fun t => (t.pc, t.slot .f, t.status)) =
      some (0xC000, 0x00, .running) := by
  decide

/-- V41-05. -/
theorem test_jr_corner :
    seen (start 0x0000 [0x18, 0x80]) (fun t => (t.pc, t.slot .f, t.status)) =
      some (0xFF82, 0x00, .running) := by
  decide

/-- The example of R117. -/
theorem test_ldAMemDe :
    seen ((((start 0xC000 [0x1A]).setPair .de 0xC100).setSlot .a 0x00).poke 0xC100 0x99)
        (fun t => (t.pc, t.slot .f, t.slot .a, t.status)) =
      some (0xC001, 0x00, 0x99, .running) := by
  decide

/-- V40-16. -/
theorem test_ldAMemDe_corner :
    seen ((start 0xC000 [0x1A]).setPair .de 0xFF4C) (fun t => (t.pc, t.slot .f, t.status)) =
      some (0xC001, 0x00, .faulted { kind := .unmappedAddress 0xFF4C, pcStart := 0xC000 }) := by
  decide

/-- The example of R194. -/
theorem test_decDe :
    seen ((start 0xC000 [0x1B]).setPair .de 0x00FF) (fun t => (t.pc, t.slot .f, t.slot .e, t.status)) =
      some (0xC001, 0x00, 0xFE, .running) := by
  decide

/-- V43-14. -/
theorem test_decDe_corner :
    seen (((start 0xC000 [0x1B]).setPair .de 0x0000).setSlot .f 0xF0)
        (fun t => (t.pc, t.slot .f, t.slot .d, t.slot .e, t.status)) =
      some (0xC001, 0xF0, 0xFF, 0xFF, .running) := by
  decide

/-- The example of R180. -/
theorem test_incE :
    seen ((start 0xC000 [0x1C]).setSlot .e 0x0F) (fun t => (t.pc, t.slot .f, t.slot .e, t.status)) =
      some (0xC001, 0x20, 0x10, .running) := by
  decide

/-- The example of R187. -/
theorem test_decE :
    seen ((start 0xC000 [0x1D]).setSlot .e 0x01) (fun t => (t.pc, t.slot .f, t.slot .e, t.status)) =
      some (0xC001, 0xC0, 0x00, .running) := by
  decide

/-- The example of R104. -/
theorem test_ldED8 :
    seen ((start 0xC000 [0x1E, 0x7F]).setSlot .e 0x00) (fun t => (t.pc, t.slot .f, t.slot .e, t.status)) =
      some (0xC002, 0x00, 0x7F, .running) := by
  decide

/-- The example of R142. -/
theorem test_jrNz :
    seen ((start 0xC000 [0x20, 0x05]).setSlot .f 0x10) (fun t => (t.pc, t.slot .f, t.status)) =
      some (0xC007, 0x10, .running) := by
  decide

/-- V41-06. -/
theorem test_jrNz_corner :
    seen ((start 0xC000 [0x20, 0x10]).setSlot .f 0x80) (fun t => (t.pc, t.slot .f, t.status)) =
      some (0xC002, 0x80, .running) := by
  decide

/-- The example of R110. -/
theorem test_ldHlD16 :
    seen (start 0xC000 [0x21, 0x34, 0x12]) (fun t => (t.pc, t.slot .f, t.slot .h, t.slot .l, t.status)) =
      some (0xC003, 0x00, 0x12, 0x34, .running) := by
  decide

/-- The example of R114. -/
theorem test_ldMemHlIncA :
    seen ((((start 0xC000 [0x22]).setPair .hl 0xC100).setSlot .a 0x42).poke 0xC100 0x99)
        (fun t => (t.pc, t.slot .f, t.slot .l, t.peek 0xC100, t.status)) =
      some (0xC001, 0x00, 0x01, 0x42, .running) := by
  decide

/-- V40-09. -/
theorem test_ldMemHlIncA_corner :
    seen (((start 0xC000 [0x22]).setPair .hl 0x9FFF).setSlot .a 0x11)
        (fun t => (t.pc, t.slot .f, t.slot .h, t.slot .l, t.peek 0x9FFF, t.status)) =
      some (0xC001, 0x00, 0xA0, 0x00, 0x11, .running) := by
  decide

/-- The example of R195. -/
theorem test_incHl :
    seen ((start 0xC000 [0x23]).setPair .hl 0x00FF) (fun t => (t.pc, t.slot .f, t.slot .h, t.slot .l, t.status)) =
      some (0xC001, 0x00, 0x01, 0x00, .running) := by
  decide

/-- V43-11. -/
theorem test_incHl_corner :
    seen ((start 0xC000 [0x23]).setPair .hl 0x00FF) (fun t => (t.pc, t.slot .f, t.slot .h, t.slot .l, t.status)) =
      some (0xC001, 0x00, 0x01, 0x00, .running) := by
  decide

/-- The example of R181. -/
theorem test_incH :
    seen ((start 0xC000 [0x24]).setSlot .h 0x0F) (fun t => (t.pc, t.slot .f, t.slot .h, t.status)) =
      some (0xC001, 0x20, 0x10, .running) := by
  decide

/-- The example of R188. -/
theorem test_decH :
    seen ((start 0xC000 [0x25]).setSlot .h 0x01) (fun t => (t.pc, t.slot .f, t.slot .h, t.status)) =
      some (0xC001, 0xC0, 0x00, .running) := by
  decide

/-- The example of R105. -/
theorem test_ldHD8 :
    seen ((start 0xC000 [0x26, 0x7F]).setSlot .h 0x00) (fun t => (t.pc, t.slot .f, t.slot .h, t.status)) =
      some (0xC002, 0x00, 0x7F, .running) := by
  decide

/-- The example of R143. -/
theorem test_jrZ :
    seen ((start 0xC000 [0x28, 0x05]).setSlot .f 0x90) (fun t => (t.pc, t.slot .f, t.status)) =
      some (0xC007, 0x90, .running) := by
  decide

/-- V41-08. -/
theorem test_jrZ_corner :
    seen ((start 0xC000 [0x28, 0xF0]).setSlot .f 0x80) (fun t => (t.pc, t.slot .f, t.status)) =
      some (0xBFF2, 0x80, .running) := by
  decide

/-- The example of R118. -/
theorem test_ldAMemHlInc :
    seen ((((start 0xC000 [0x2A]).setPair .hl 0xC100).setSlot .a 0x00).poke 0xC100 0x99)
        (fun t => (t.pc, t.slot .f, t.slot .a, t.slot .l, t.status)) =
      some (0xC001, 0x00, 0x99, 0x01, .running) := by
  decide

/-- V40-12. -/
theorem test_ldAMemHlInc_corner :
    seen (((start 0xC000 [0x2A]).setPair .hl 0xFFFE).poke 0xFFFE 0x99)
        (fun t => (t.pc, t.slot .f, t.slot .a, t.slot .l, t.status)) =
      some (0xC001, 0x00, 0x99, 0xFF, .running) := by
  decide

/-- The example of R196. -/
theorem test_decHl :
    seen ((start 0xC000 [0x2B]).setPair .hl 0x00FF) (fun t => (t.pc, t.slot .f, t.slot .l, t.status)) =
      some (0xC001, 0x00, 0xFE, .running) := by
  decide

/-- The example of R182. -/
theorem test_incL :
    seen ((start 0xC000 [0x2C]).setSlot .l 0x0F) (fun t => (t.pc, t.slot .f, t.slot .l, t.status)) =
      some (0xC001, 0x20, 0x10, .running) := by
  decide

/-- V43-04. -/
theorem test_incL_corner :
    seen (((start 0xC000 [0x2C]).setSlot .l 0x00).setSlot .f 0xA0) (fun t => (t.pc, t.slot .f, t.slot .l, t.status)) =
      some (0xC001, 0x00, 0x01, .running) := by
  decide

/-- The example of R189. -/
theorem test_decL :
    seen ((start 0xC000 [0x2D]).setSlot .l 0x01) (fun t => (t.pc, t.slot .f, t.slot .l, t.status)) =
      some (0xC001, 0xC0, 0x00, .running) := by
  decide

/-- The example of R106. -/
theorem test_ldLD8 :
    seen ((start 0xC000 [0x2E, 0x7F]).setSlot .l 0x00) (fun t => (t.pc, t.slot .f, t.slot .l, t.status)) =
      some (0xC002, 0x00, 0x7F, .running) := by
  decide

/-- The example of R144. -/
theorem test_jrNc :
    seen ((start 0xC000 [0x30, 0x05]).setSlot .f 0x80) (fun t => (t.pc, t.slot .f, t.status)) =
      some (0xC007, 0x80, .running) := by
  decide

/-- V41-09. -/
theorem test_jrNc_corner :
    seen ((start 0xC000 [0x30, 0x02]).setSlot .f 0x10) (fun t => (t.pc, t.slot .f, t.status)) =
      some (0xC002, 0x10, .running) := by
  decide

/-- The example of R111. -/
theorem test_ldSpD16 :
    seen (start 0xC000 [0x31, 0x34, 0x12]) (fun t => (t.pc, t.slot .f, t.sp, t.status)) =
      some (0xC003, 0x00, 0x1234, .running) := by
  decide

/-- The example of R115. -/
theorem test_ldMemHlDecA :
    seen ((((start 0xC000 [0x32]).setPair .hl 0xC100).setSlot .a 0x42).poke 0xC100 0x99)
        (fun t => (t.pc, t.slot .f, t.slot .h, t.slot .l, t.peek 0xC100, t.status)) =
      some (0xC001, 0x00, 0xC0, 0xFF, 0x42, .running) := by
  decide

/-- V40-11. -/
theorem test_ldMemHlDecA_corner :
    seen (((start 0xC000 [0x32]).setPair .hl 0x3FFF).setSlot .a 0x22) (fun t => (t.pc, t.slot .f, t.status)) =
      some (0xC001, 0x00, .faulted { kind := .readOnlyViolation 0x3FFF, pcStart := 0xC000 }) := by
  decide

/-- The example of R197. -/
theorem test_incSp :
    seen ((start 0xC000 [0x33]).setSp 0xFFFF) (fun t => (t.pc, t.slot .f, t.sp, t.status)) =
      some (0xC001, 0x00, 0x0000, .running) := by
  decide

/-- V43-13. -/
theorem test_incSp_corner :
    seen ((start 0xC000 [0x33]).setSp 0xFFFF) (fun t => (t.pc, t.slot .f, t.sp, t.status)) =
      some (0xC001, 0x00, 0x0000, .running) := by
  decide

/-- The example of R145. -/
theorem test_jrC :
    seen ((start 0xC000 [0x38, 0x05]).setSlot .f 0x90) (fun t => (t.pc, t.slot .f, t.status)) =
      some (0xC007, 0x90, .running) := by
  decide

/-- V41-10. -/
theorem test_jrC_corner :
    seen ((start 0xC000 [0x38, 0xFC]).setSlot .f 0x10) (fun t => (t.pc, t.slot .f, t.status)) =
      some (0xBFFE, 0x10, .running) := by
  decide

/-- The example of R119. -/
theorem test_ldAMemHlDec :
    seen ((((start 0xC000 [0x3A]).setPair .hl 0xC100).setSlot .a 0x00).poke 0xC100 0x99)
        (fun t => (t.pc, t.slot .f, t.slot .a, t.slot .h, t.slot .l, t.status)) =
      some (0xC001, 0x00, 0x99, 0xC0, 0xFF, .running) := by
  decide

/-- V40-14. -/
theorem test_ldAMemHlDec_corner :
    seen (((start 0xC000 [0x3A]).setPair .hl 0x0000).poke 0x0000 0x31)
        (fun t => (t.pc, t.slot .f, t.slot .a, t.slot .h, t.slot .l, t.status)) =
      some (0xC001, 0x00, 0x31, 0xFF, 0xFF, .running) := by
  decide

/-- The example of R198. -/
theorem test_decSp :
    seen ((start 0xC000 [0x3B]).setSp 0x0000) (fun t => (t.pc, t.slot .f, t.sp, t.status)) =
      some (0xC001, 0x00, 0xFFFF, .running) := by
  decide

/-- V43-12. -/
theorem test_decSp_corner :
    seen ((start 0xC000 [0x3B]).setSp 0x0000) (fun t => (t.pc, t.slot .f, t.sp, t.status)) =
      some (0xC001, 0x00, 0xFFFF, .running) := by
  decide

/-- The example of R183. -/
theorem test_incA :
    seen ((start 0xC000 [0x3C]).setSlot .a 0x0F) (fun t => (t.pc, t.slot .f, t.slot .a, t.status)) =
      some (0xC001, 0x20, 0x10, .running) := by
  decide

/-- V43-03. -/
theorem test_incA_corner :
    seen (((start 0xC000 [0x3C]).setSlot .a 0x7F).setSlot .f 0x40) (fun t => (t.pc, t.slot .f, t.slot .a, t.status)) =
      some (0xC001, 0x20, 0x80, .running) := by
  decide

/-- The example of R190. -/
theorem test_decA :
    seen ((start 0xC000 [0x3D]).setSlot .a 0x01) (fun t => (t.pc, t.slot .f, t.slot .a, t.status)) =
      some (0xC001, 0xC0, 0x00, .running) := by
  decide

/-- V43-08. -/
theorem test_decA_corner :
    seen (((start 0xC000 [0x3D]).setSlot .a 0x80).setSlot .f 0x10) (fun t => (t.pc, t.slot .f, t.slot .a, t.status)) =
      some (0xC001, 0x70, 0x7F, .running) := by
  decide

/-- The example of R107. -/
theorem test_ldAD8 :
    seen ((start 0xC000 [0x3E, 0x7F]).setSlot .a 0x00) (fun t => (t.pc, t.slot .f, t.slot .a, t.status)) =
      some (0xC002, 0x00, 0x7F, .running) := by
  decide

/-- The example of R120. -/
theorem test_ldBMemHl :
    seen (((start 0xC000 [0x46]).setPair .hl 0xC100).poke 0xC100 0x99)
        (fun t => (t.pc, t.slot .f, t.slot .b, t.status)) =
      some (0xC001, 0x00, 0x99, .running) := by
  decide

/-- The example of R121. -/
theorem test_ldCMemHl :
    seen (((start 0xC000 [0x4E]).setPair .hl 0xC100).poke 0xC100 0x99)
        (fun t => (t.pc, t.slot .f, t.slot .c, t.status)) =
      some (0xC001, 0x00, 0x99, .running) := by
  decide

/-- The example of R122. -/
theorem test_ldDMemHl :
    seen (((start 0xC000 [0x56]).setPair .hl 0xC100).poke 0xC100 0x99)
        (fun t => (t.pc, t.slot .f, t.slot .d, t.status)) =
      some (0xC001, 0x00, 0x99, .running) := by
  decide

/-- The example of R123. -/
theorem test_ldEMemHl :
    seen (((start 0xC000 [0x5E]).setPair .hl 0xC100).poke 0xC100 0x99)
        (fun t => (t.pc, t.slot .f, t.slot .e, t.status)) =
      some (0xC001, 0x00, 0x99, .running) := by
  decide

/-- The example of R124. -/
theorem test_ldHMemHl :
    seen (((start 0xC000 [0x66]).setPair .hl 0xC100).poke 0xC100 0x99)
        (fun t => (t.pc, t.slot .f, t.slot .h, t.status)) =
      some (0xC001, 0x00, 0x99, .running) := by
  decide

/-- V40-17. -/
theorem test_ldHMemHl_corner :
    seen (((start 0xC000 [0x66]).setPair .hl 0xC123).poke 0xC123 0xD0)
        (fun t => (t.pc, t.slot .f, t.slot .h, t.status)) =
      some (0xC001, 0x00, 0xD0, .running) := by
  decide

/-- The example of R125. -/
theorem test_ldLMemHl :
    seen (((start 0xC000 [0x6E]).setPair .hl 0xC100).poke 0xC100 0x99)
        (fun t => (t.pc, t.slot .f, t.slot .l, t.status)) =
      some (0xC001, 0x00, 0x99, .running) := by
  decide

/-- The example of R127. -/
theorem test_ldMemHlB :
    seen (((start 0xC000 [0x70]).setPair .hl 0xC100).setSlot .b 0x5C)
        (fun t => (t.pc, t.slot .f, t.peek 0xC100, t.status)) =
      some (0xC001, 0x00, 0x5C, .running) := by
  decide

/-- The example of R128. -/
theorem test_ldMemHlC :
    seen (((start 0xC000 [0x71]).setPair .hl 0xC100).setSlot .c 0x5C)
        (fun t => (t.pc, t.slot .f, t.peek 0xC100, t.status)) =
      some (0xC001, 0x00, 0x5C, .running) := by
  decide

/-- The example of R129. -/
theorem test_ldMemHlD :
    seen (((start 0xC000 [0x72]).setPair .hl 0xC100).setSlot .d 0x5C)
        (fun t => (t.pc, t.slot .f, t.peek 0xC100, t.status)) =
      some (0xC001, 0x00, 0x5C, .running) := by
  decide

/-- The example of R130. -/
theorem test_ldMemHlE :
    seen (((start 0xC000 [0x73]).setPair .hl 0xC100).setSlot .e 0x5C)
        (fun t => (t.pc, t.slot .f, t.peek 0xC100, t.status)) =
      some (0xC001, 0x00, 0x5C, .running) := by
  decide

/-- The example of R131. -/
theorem test_ldMemHlH :
    seen ((start 0xC000 [0x74]).setPair .hl 0xC1C1) (fun t => (t.pc, t.slot .f, t.peek 0xC1C1, t.status)) =
      some (0xC001, 0x00, 0xC1, .running) := by
  decide

/-- The example of R132. -/
theorem test_ldMemHlL :
    seen ((start 0xC000 [0x75]).setPair .hl 0xC1C1) (fun t => (t.pc, t.slot .f, t.peek 0xC1C1, t.status)) =
      some (0xC001, 0x00, 0xC1, .running) := by
  decide

/-- V40-20. -/
theorem test_ldMemHlL_corner :
    seen ((start 0xC000 [0x75]).setPair .hl 0xC123) (fun t => (t.pc, t.slot .f, t.peek 0xC123, t.status)) =
      some (0xC001, 0x00, 0x23, .running) := by
  decide

/-- The example of R133. -/
theorem test_ldMemHlA :
    seen (((start 0xC000 [0x77]).setPair .hl 0xC100).setSlot .a 0x5C)
        (fun t => (t.pc, t.slot .f, t.peek 0xC100, t.status)) =
      some (0xC001, 0x00, 0x5C, .running) := by
  decide

/-- V40-21. -/
theorem test_ldMemHlA_corner :
    seen (((start 0xC000 [0x77]).setPair .hl 0x1234).setSlot .a 0x01) (fun t => (t.pc, t.slot .f, t.status)) =
      some (0xC001, 0x00, .faulted { kind := .readOnlyViolation 0x1234, pcStart := 0xC000 }) := by
  decide

/-- The example of R126. -/
theorem test_ldAMemHl :
    seen (((start 0xC000 [0x7E]).setPair .hl 0xC100).poke 0xC100 0x99)
        (fun t => (t.pc, t.slot .f, t.slot .a, t.status)) =
      some (0xC001, 0x00, 0x99, .running) := by
  decide

/-- The example of R199. -/
theorem test_subB :
    seen (((start 0xC000 [0x90]).setSlot .a 0x10).setSlot .b 0x01) (fun t => (t.pc, t.slot .f, t.slot .a, t.status)) =
      some (0xC001, 0x60, 0x0F, .running) := by
  decide

/-- The example of R200. -/
theorem test_subC :
    seen (((start 0xC000 [0x91]).setSlot .a 0x10).setSlot .c 0x01) (fun t => (t.pc, t.slot .f, t.slot .a, t.status)) =
      some (0xC001, 0x60, 0x0F, .running) := by
  decide

/-- V43-16. -/
theorem test_subC_corner :
    seen (((start 0xC000 [0x91]).setSlot .a 0x00).setSlot .c 0x01) (fun t => (t.pc, t.slot .f, t.slot .a, t.status)) =
      some (0xC001, 0x70, 0xFF, .running) := by
  decide

/-- The example of R201. -/
theorem test_subD :
    seen (((start 0xC000 [0x92]).setSlot .a 0x10).setSlot .d 0x01) (fun t => (t.pc, t.slot .f, t.slot .a, t.status)) =
      some (0xC001, 0x60, 0x0F, .running) := by
  decide

/-- The example of R202. -/
theorem test_subE :
    seen (((start 0xC000 [0x93]).setSlot .a 0x10).setSlot .e 0x01) (fun t => (t.pc, t.slot .f, t.slot .a, t.status)) =
      some (0xC001, 0x60, 0x0F, .running) := by
  decide

/-- The example of R203. -/
theorem test_subH :
    seen (((start 0xC000 [0x94]).setSlot .a 0x10).setSlot .h 0x01) (fun t => (t.pc, t.slot .f, t.slot .a, t.status)) =
      some (0xC001, 0x60, 0x0F, .running) := by
  decide

/-- The example of R204. -/
theorem test_subL :
    seen (((start 0xC000 [0x95]).setSlot .a 0x10).setSlot .l 0x01) (fun t => (t.pc, t.slot .f, t.slot .a, t.status)) =
      some (0xC001, 0x60, 0x0F, .running) := by
  decide

/-- V43-22. -/
theorem test_subL_corner :
    seen (((start 0xC000 [0x95]).setSlot .a 0x05).setSlot .l 0x80) (fun t => (t.pc, t.slot .f, t.slot .a, t.status)) =
      some (0xC001, 0x50, 0x85, .running) := by
  decide

/-- The example of R205. -/
theorem test_subMemHl :
    seen ((((start 0xC000 [0x96]).setSlot .a 0x10).setPair .hl 0xC100).poke 0xC100 0x01)
        (fun t => (t.pc, t.slot .f, t.slot .a, t.status)) =
      some (0xC001, 0x60, 0x0F, .running) := by
  decide

/-- V43-21. -/
theorem test_subMemHl_corner :
    seen (((start 0xC000 [0x96]).setSlot .a 0x80).setPair .hl 0xE000) (fun t => (t.pc, t.slot .f, t.status)) =
      some (0xC001, 0x00, .faulted { kind := .unmappedAddress 0xE000, pcStart := 0xC000 }) := by
  decide

/-- The example of R206. -/
theorem test_subA :
    seen ((start 0xC000 [0x97]).setSlot .a 0x3C) (fun t => (t.pc, t.slot .f, t.slot .a, t.status)) =
      some (0xC001, 0xC0, 0x00, .running) := by
  decide

/-- V43-17. -/
theorem test_subA_corner :
    seen (((start 0xC000 [0x97]).setSlot .a 0x9C).setSlot .f 0x10) (fun t => (t.pc, t.slot .f, t.slot .a, t.status)) =
      some (0xC001, 0xC0, 0x00, .running) := by
  decide

/-- The example of R208. -/
theorem test_xorB :
    seen ((((start 0xC000 [0xA8]).setSlot .a 0x5A).setSlot .b 0x0F).setSlot .f 0x50)
        (fun t => (t.pc, t.slot .f, t.slot .a, t.status)) =
      some (0xC001, 0x50, 0x55, .running) := by
  decide

/-- V43-28. -/
theorem test_xorB_corner :
    seen ((((start 0xC000 [0xA8]).setSlot .a 0xF0).setSlot .b 0x0F).setSlot .f 0x80)
        (fun t => (t.pc, t.slot .f, t.slot .a, t.status)) =
      some (0xC001, 0x00, 0xFF, .running) := by
  decide

/-- The example of R209. -/
theorem test_xorC :
    seen ((((start 0xC000 [0xA9]).setSlot .a 0x5A).setSlot .c 0x0F).setSlot .f 0x50)
        (fun t => (t.pc, t.slot .f, t.slot .a, t.status)) =
      some (0xC001, 0x50, 0x55, .running) := by
  decide

/-- The example of R210. -/
theorem test_xorD :
    seen ((((start 0xC000 [0xAA]).setSlot .a 0x5A).setSlot .d 0x0F).setSlot .f 0x50)
        (fun t => (t.pc, t.slot .f, t.slot .a, t.status)) =
      some (0xC001, 0x50, 0x55, .running) := by
  decide

/-- The example of R211. -/
theorem test_xorE :
    seen ((((start 0xC000 [0xAB]).setSlot .a 0x5A).setSlot .e 0x0F).setSlot .f 0x50)
        (fun t => (t.pc, t.slot .f, t.slot .a, t.status)) =
      some (0xC001, 0x50, 0x55, .running) := by
  decide

/-- The example of R212. -/
theorem test_xorH :
    seen ((((start 0xC000 [0xAC]).setSlot .a 0x5A).setSlot .h 0x0F).setSlot .f 0x50)
        (fun t => (t.pc, t.slot .f, t.slot .a, t.status)) =
      some (0xC001, 0x50, 0x55, .running) := by
  decide

/-- The example of R213. -/
theorem test_xorL :
    seen ((((start 0xC000 [0xAD]).setSlot .a 0x5A).setSlot .l 0x0F).setSlot .f 0x50)
        (fun t => (t.pc, t.slot .f, t.slot .a, t.status)) =
      some (0xC001, 0x50, 0x55, .running) := by
  decide

/-- The example of R214. -/
theorem test_xorMemHl :
    seen (((((start 0xC000 [0xAE]).setSlot .a 0x5A).setPair .hl 0xC100).setSlot .f 0x50).poke 0xC100 0x0F)
        (fun t => (t.pc, t.slot .f, t.slot .a, t.status)) =
      some (0xC001, 0x50, 0x55, .running) := by
  decide

/-- V43-30. -/
theorem test_xorMemHl_corner :
    seen (((((start 0xC000 [0xAE]).setSlot .a 0x0F).setPair .hl 0xC200).setSlot .f 0x10).poke 0xC200 0x0F)
        (fun t => (t.pc, t.slot .f, t.slot .a, t.status)) =
      some (0xC001, 0x90, 0x00, .running) := by
  decide

/-- The example of R215. -/
theorem test_xorA :
    seen (((start 0xC000 [0xAF]).setSlot .a 0x5A).setSlot .f 0x50) (fun t => (t.pc, t.slot .f, t.slot .a, t.status)) =
      some (0xC001, 0xD0, 0x00, .running) := by
  decide

/-- V43-27. -/
theorem test_xorA_corner :
    seen (((start 0xC000 [0xAF]).setSlot .a 0x5A).setSlot .f 0x70) (fun t => (t.pc, t.slot .f, t.slot .a, t.status)) =
      some (0xC001, 0xF0, 0x00, .running) := by
  decide

/-- The example of R217. -/
theorem test_cpB :
    seen (((start 0xC000 [0xB8]).setSlot .a 0x10).setSlot .b 0x01) (fun t => (t.pc, t.slot .f, t.status)) =
      some (0xC001, 0x60, .running) := by
  decide

/-- V43-24. -/
theorem test_cpB_corner :
    seen (((start 0xC000 [0xB8]).setSlot .a 0x40).setSlot .b 0x50) (fun t => (t.pc, t.slot .f, t.status)) =
      some (0xC001, 0x50, .running) := by
  decide

/-- The example of R218. -/
theorem test_cpC :
    seen (((start 0xC000 [0xB9]).setSlot .a 0x10).setSlot .c 0x01) (fun t => (t.pc, t.slot .f, t.status)) =
      some (0xC001, 0x60, .running) := by
  decide

/-- The example of R219. -/
theorem test_cpD :
    seen (((start 0xC000 [0xBA]).setSlot .a 0x10).setSlot .d 0x01) (fun t => (t.pc, t.slot .f, t.status)) =
      some (0xC001, 0x60, .running) := by
  decide

/-- The example of R220. -/
theorem test_cpE :
    seen (((start 0xC000 [0xBB]).setSlot .a 0x10).setSlot .e 0x01) (fun t => (t.pc, t.slot .f, t.status)) =
      some (0xC001, 0x60, .running) := by
  decide

/-- The example of R221. -/
theorem test_cpH :
    seen (((start 0xC000 [0xBC]).setSlot .a 0x10).setSlot .h 0x01) (fun t => (t.pc, t.slot .f, t.status)) =
      some (0xC001, 0x60, .running) := by
  decide

/-- The example of R222. -/
theorem test_cpL :
    seen (((start 0xC000 [0xBD]).setSlot .a 0x10).setSlot .l 0x01) (fun t => (t.pc, t.slot .f, t.status)) =
      some (0xC001, 0x60, .running) := by
  decide

/-- The example of R223. -/
theorem test_cpMemHl :
    seen ((((start 0xC000 [0xBE]).setSlot .a 0x10).setPair .hl 0xC100).poke 0xC100 0x01)
        (fun t => (t.pc, t.slot .f, t.status)) =
      some (0xC001, 0x60, .running) := by
  decide

/-- V43-25. -/
theorem test_cpMemHl_corner :
    seen ((((start 0xC000 [0xBE]).setSlot .a 0x40).setPair .hl 0xC200).poke 0xC200 0x41)
        (fun t => (t.pc, t.slot .f, t.status)) =
      some (0xC001, 0x70, .running) := by
  decide

/-- The example of R224. -/
theorem test_cpA :
    seen ((start 0xC000 [0xBF]).setSlot .a 0x3C) (fun t => (t.pc, t.slot .f, t.status)) =
      some (0xC001, 0xC0, .running) := by
  decide

/-- The example of R167. -/
theorem test_popBc :
    seen ((((start 0xC000 [0xC1]).setSp 0xFFFC).poke 0xFFFD 0xFF).poke 0xFFFE 0x12)
        (fun t => (t.pc, t.slot .f, t.slot .b, t.slot .c, t.sp, t.status)) =
      some (0xC001, 0x00, 0x12, 0xFF, 0xFFFE, .running) := by
  decide

/-- V42-09. -/
theorem test_popBc_corner :
    seen ((((start 0xC000 [0xC1]).setSp 0xFFFF).poke 0x0000 0x31).poke 0x0001 0xFE)
        (fun t => (t.pc, t.slot .f, t.slot .b, t.slot .c, t.sp, t.status)) =
      some (0xC001, 0x00, 0xFE, 0x31, 0x0001, .running) := by
  decide

/-- The example of R147. -/
theorem test_jpNz :
    seen (start 0xC000 [0xC2, 0x00, 0xD0]) (fun t => (t.pc, t.slot .f, t.status)) =
      some (0xD000, 0x00, .running) := by
  decide

/-- V41-13. -/
theorem test_jpNz_corner :
    seen ((start 0xC000 [0xC2, 0x00, 0xD0]).setSlot .f 0x80) (fun t => (t.pc, t.slot .f, t.status)) =
      some (0xC003, 0x80, .running) := by
  decide

/-- The example of R146. -/
theorem test_jp :
    seen (start 0xC000 [0xC3, 0x00, 0x02]) (fun t => (t.pc, t.slot .f, t.status)) =
      some (0x0200, 0x00, .running) := by
  decide

/-- V41-12. -/
theorem test_jp_corner :
    seen (start 0xC000 [0xC3, 0x00, 0xA0]) (fun t => (t.pc, t.slot .f, t.status)) =
      some (0xA000, 0x00, .running) := by
  decide

/-- The example of R163. -/
theorem test_pushBc :
    seen (((start 0xC000 [0xC5]).setPair .bc 0xBEEF).setSp 0xFFFE)
        (fun t => (t.pc, t.slot .f, t.sp, t.peek 0xFFFD, t.peek 0xFFFE, t.status)) =
      some (0xC001, 0x00, 0xFFFC, 0xEF, 0xBE, .running) := by
  decide

/-- The example of R152. -/
theorem test_ret :
    seen ((((start 0xC000 [0xC9]).setSp 0xFFFC).poke 0xFFFD 0x03).poke 0xFFFE 0xC0)
        (fun t => (t.pc, t.slot .f, t.sp, t.status)) =
      some (0xC003, 0x00, 0xFFFE, .running) := by
  decide

/-- V41-24. -/
theorem test_ret_corner :
    seen (((start 0xC000 [0xC9]).setSp 0xDFFE).poke 0xDFFF 0x00) (fun t => (t.pc, t.slot .f, t.status)) =
      some (0xC001, 0x00, .faulted { kind := .unmappedAddress 0xE000, pcStart := 0xC000 }) := by
  decide

/-- The example of R148. -/
theorem test_jpZ :
    seen (start 0xC000 [0xCA, 0x00, 0xD0]) (fun t => (t.pc, t.slot .f, t.status)) =
      some (0xC003, 0x00, .running) := by
  decide

/-- V41-14. -/
theorem test_jpZ_corner :
    seen ((start 0xC000 [0xCA, 0x00, 0xD0]).setSlot .f 0x80) (fun t => (t.pc, t.slot .f, t.status)) =
      some (0xD000, 0x80, .running) := by
  decide

/-- V30-04. -/
theorem test_cbPrefix :
    seen (start 0xC000 [0xCB, 0x16]) (fun t => (t.pc, t.slot .f, t.status)) =
      some (0xC002, 0x00, .faulted { kind := .illegalOpcode 0x16 true, pcStart := 0xC000 }) := by
  decide

/-- V30-05. -/
theorem test_cbPrefix_corner :
    seen (start 0xC000 [0xCB, 0xCB]) (fun t => (t.pc, t.slot .f, t.status)) =
      some (0xC002, 0x00, .faulted { kind := .illegalOpcode 0xCB true, pcStart := 0xC000 }) := by
  decide

/-- The example of R151. -/
theorem test_call :
    seen ((start 0xC000 [0xCD, 0x00, 0xD0]).setSp 0xFFFE)
        (fun t => (t.pc, t.slot .f, t.sp, t.peek 0xFFFD, t.peek 0xFFFE, t.status)) =
      some (0xD000, 0x00, 0xFFFC, 0x03, 0xC0, .running) := by
  decide

/-- V41-20. -/
theorem test_call_corner :
    seen ((start 0xC000 [0xCD, 0x00, 0xD0]).setSp 0xA000) (fun t => (t.pc, t.slot .f, t.peek 0x9FFF, t.status)) =
      some (0xC003, 0x00, 0x03, .faulted { kind := .unmappedAddress 0xA000, pcStart := 0xC000 }) := by
  decide

/-- The example of R168. -/
theorem test_popDe :
    seen ((((start 0xC000 [0xD1]).setSp 0xFFFC).poke 0xFFFD 0xFF).poke 0xFFFE 0x12)
        (fun t => (t.pc, t.slot .f, t.slot .d, t.slot .e, t.sp, t.status)) =
      some (0xC001, 0x00, 0x12, 0xFF, 0xFFFE, .running) := by
  decide

/-- The example of R149. -/
theorem test_jpNc :
    seen (start 0xC000 [0xD2, 0x00, 0xD0]) (fun t => (t.pc, t.slot .f, t.status)) =
      some (0xD000, 0x00, .running) := by
  decide

/-- The example of R164. -/
theorem test_pushDe :
    seen (((start 0xC000 [0xD5]).setPair .de 0xBEEF).setSp 0xFFFE)
        (fun t => (t.pc, t.slot .f, t.sp, t.peek 0xFFFD, t.peek 0xFFFE, t.status)) =
      some (0xC001, 0x00, 0xFFFC, 0xEF, 0xBE, .running) := by
  decide

/-- V42-04. -/
theorem test_pushDe_corner :
    seen (((start 0xC000 [0xD5]).setPair .de 0xBEEF).setSp 0xA000)
        (fun t => (t.pc, t.slot .f, t.peek 0x9FFF, t.status)) =
      some (0xC001, 0x00, 0xEF, .faulted { kind := .unmappedAddress 0xA000, pcStart := 0xC000 }) := by
  decide

/-- The example of R207. -/
theorem test_subD8 :
    seen ((start 0xC000 [0xD6, 0x01]).setSlot .a 0x10) (fun t => (t.pc, t.slot .f, t.slot .a, t.status)) =
      some (0xC002, 0x60, 0x0F, .running) := by
  decide

/-- V43-18. -/
theorem test_subD8_corner :
    seen ((start 0xC000 [0xD6, 0x0F]).setSlot .a 0x3E) (fun t => (t.pc, t.slot .f, t.slot .a, t.status)) =
      some (0xC002, 0x60, 0x2F, .running) := by
  decide

/-- The example of R150. -/
theorem test_jpC :
    seen (start 0xC000 [0xDA, 0x00, 0xD0]) (fun t => (t.pc, t.slot .f, t.status)) =
      some (0xC003, 0x00, .running) := by
  decide

/-- V41-16. -/
theorem test_jpC_corner :
    seen (start 0xC000 [0xDA, 0x00, 0xD0]) (fun t => (t.pc, t.slot .f, t.status)) =
      some (0xC003, 0x00, .running) := by
  decide

/-- The example of R134. -/
theorem test_ldhMemA :
    seen ((start 0xC000 [0xE0, 0x80]).setSlot .a 0x3C) (fun t => (t.pc, t.slot .f, t.peek 0xFF80, t.status)) =
      some (0xC002, 0x00, 0x3C, .running) := by
  decide

/-- V40-23. -/
theorem test_ldhMemA_corner :
    seen ((start 0xC000 [0xE0, 0x7F]).setSlot .a 0x42) (fun t => (t.pc, t.slot .f, t.status)) =
      some (0xC002, 0x00, .faulted { kind := .unmappedAddress 0xFF7F, pcStart := 0xC000 }) := by
  decide

/-- The example of R169. -/
theorem test_popHl :
    seen ((((start 0xC000 [0xE1]).setSp 0xFFFC).poke 0xFFFD 0xFF).poke 0xFFFE 0x12)
        (fun t => (t.pc, t.slot .f, t.slot .h, t.slot .l, t.sp, t.status)) =
      some (0xC001, 0x00, 0x12, 0xFF, 0xFFFE, .running) := by
  decide

/-- V42-08. -/
theorem test_popHl_corner :
    seen (((start 0xC000 [0xE1]).setPair .hl 0x5555).setSp 0xFFFE) (fun t => (t.pc, t.slot .f, t.status)) =
      some (0xC001, 0x00, .faulted { kind := .unmappedAddress 0xFFFF, pcStart := 0xC000 }) := by
  decide

/-- The example of R136. -/
theorem test_ldMemCA :
    seen (((start 0xC000 [0xE2]).setSlot .a 0x77).setSlot .c 0x11)
        (fun t => (t.pc, t.slot .f, t.peek 0xFF11, t.status)) =
      some (0xC001, 0x00, 0x77, .running) := by
  decide

/-- V40-26. -/
theorem test_ldMemCA_corner :
    seen (((start 0xC000 [0xE2]).setSlot .c 0x4B).setSlot .a 0x33)
        (fun t => (t.pc, t.slot .f, t.peek 0xFF4B, t.status)) =
      some (0xC001, 0x00, 0x33, .running) := by
  decide

/-- The example of R165. -/
theorem test_pushHl :
    seen (((start 0xC000 [0xE5]).setPair .hl 0xBEEF).setSp 0xFFFE)
        (fun t => (t.pc, t.slot .f, t.sp, t.peek 0xFFFD, t.peek 0xFFFE, t.status)) =
      some (0xC001, 0x00, 0xFFFC, 0xEF, 0xBE, .running) := by
  decide

/-- V42-03. -/
theorem test_pushHl_corner :
    seen (((start 0xC000 [0xE5]).setPair .hl 0xBEEF).setSp 0xFF80) (fun t => (t.pc, t.slot .f, t.status)) =
      some (0xC001, 0x00, .faulted { kind := .unmappedAddress 0xFF7F, pcStart := 0xC000 }) := by
  decide

/-- The example of R216. -/
theorem test_xorD8 :
    seen (((start 0xC000 [0xEE, 0x0F]).setSlot .a 0x5A).setSlot .f 0x50)
        (fun t => (t.pc, t.slot .f, t.slot .a, t.status)) =
      some (0xC002, 0x50, 0x55, .running) := by
  decide

/-- The example of R135. -/
theorem test_ldhAMem :
    seen ((start 0xC000 [0xF0, 0x81]).poke 0xFF81 0xA5) (fun t => (t.pc, t.slot .f, t.slot .a, t.status)) =
      some (0xC002, 0x00, 0xA5, .running) := by
  decide

/-- V40-25. -/
theorem test_ldhAMem_corner :
    seen ((start 0xC000 [0xF0, 0xFF]).setSlot .a 0x01) (fun t => (t.pc, t.slot .f, t.status)) =
      some (0xC002, 0x00, .faulted { kind := .unmappedAddress 0xFFFF, pcStart := 0xC000 }) := by
  decide

/-- The example of R170. -/
theorem test_popAf :
    seen ((((start 0xC000 [0xF1]).setSp 0xFFFC).poke 0xFFFD 0xFF).poke 0xFFFE 0x12)
        (fun t => (t.pc, t.slot .f, t.slot .a, t.sp, t.status)) =
      some (0xC001, 0xF0, 0x12, 0xFFFE, .running) := by
  decide

/-- V42-06. -/
theorem test_popAf_corner :
    seen (((((start 0xC000 [0xF1]).setSp 0xFFFC).setSlot .f 0x80).poke 0xFFFD 0x0F).poke 0xFFFE 0x00)
        (fun t => (t.pc, t.slot .f, t.sp, t.status)) =
      some (0xC001, 0x00, 0xFFFE, .running) := by
  decide

/-- The example of R137. -/
theorem test_ldAMemC :
    seen (((start 0xC000 [0xF2]).setSlot .c 0x90).poke 0xFF90 0x1E) (fun t => (t.pc, t.slot .f, t.slot .a, t.status)) =
      some (0xC001, 0x00, 0x1E, .running) := by
  decide

/-- V40-28. -/
theorem test_ldAMemC_corner :
    seen ((start 0xC000 [0xF2]).setSlot .c 0x4C) (fun t => (t.pc, t.slot .f, t.status)) =
      some (0xC001, 0x00, .faulted { kind := .unmappedAddress 0xFF4C, pcStart := 0xC000 }) := by
  decide

/-- The example of R166. -/
theorem test_pushAf :
    seen (((start 0xC000 [0xF5]).setPair .af 0x1230).setSp 0xFFFE)
        (fun t => (t.pc, t.slot .f, t.sp, t.peek 0xFFFD, t.peek 0xFFFE, t.status)) =
      some (0xC001, 0x30, 0xFFFC, 0x30, 0x12, .running) := by
  decide

/-- The example of R225. -/
theorem test_cpD8 :
    seen ((start 0xC000 [0xFE, 0x01]).setSlot .a 0x10) (fun t => (t.pc, t.slot .f, t.status)) =
      some (0xC002, 0x60, .running) := by
  decide

/-- V43-23. -/
theorem test_cpD8_corner :
    seen ((start 0xC000 [0xFE, 0x42]).setSlot .a 0x42) (fun t => (t.pc, t.slot .f, t.status)) =
      some (0xC002, 0xC0, .running) := by
  decide

/-- The example of R232. -/
theorem test_rlB :
    seen ((((start 0xC000 [0xCB, 0x10]).clearing).setSlot .b 0x95).setSlot .f 0x10)
        (fun t => (t.pc, t.slot .f, t.slot .b, t.status)) =
      some (0xC002, 0x10, 0x2B, .running) := by
  decide

/-- V44-04. -/
theorem test_rlB_corner :
    seen ((((start 0xC000 [0xCB, 0x10]).clearing).setSlot .b 0x95).setSlot .f 0x10)
        (fun t => (t.pc, t.slot .f, t.slot .b, t.status)) =
      some (0xC002, 0x10, 0x2B, .running) := by
  decide

/-- The example of R233. -/
theorem test_rlC :
    seen ((((start 0xC000 [0xCB, 0x11]).clearing).setSlot .c 0x95).setSlot .f 0x10)
        (fun t => (t.pc, t.slot .f, t.slot .c, t.status)) =
      some (0xC002, 0x10, 0x2B, .running) := by
  decide

/-- V44-05. -/
theorem test_rlC_corner :
    seen (((start 0xC000 [0xCB, 0x11]).clearing).setSlot .c 0x00) (fun t => (t.pc, t.slot .f, t.status)) =
      some (0xC002, 0x80, .running) := by
  decide

/-- The example of R234. -/
theorem test_rlD :
    seen ((((start 0xC000 [0xCB, 0x12]).clearing).setSlot .d 0x95).setSlot .f 0x10)
        (fun t => (t.pc, t.slot .f, t.slot .d, t.status)) =
      some (0xC002, 0x10, 0x2B, .running) := by
  decide

/-- The example of R235. -/
theorem test_rlE :
    seen ((((start 0xC000 [0xCB, 0x13]).clearing).setSlot .e 0x95).setSlot .f 0x10)
        (fun t => (t.pc, t.slot .f, t.slot .e, t.status)) =
      some (0xC002, 0x10, 0x2B, .running) := by
  decide

/-- The example of R236. -/
theorem test_rlH :
    seen ((((start 0xC000 [0xCB, 0x14]).clearing).setSlot .h 0x95).setSlot .f 0x10)
        (fun t => (t.pc, t.slot .f, t.slot .h, t.status)) =
      some (0xC002, 0x10, 0x2B, .running) := by
  decide

/-- V44-08. -/
theorem test_rlH_corner :
    seen ((((start 0xC000 [0xCB, 0x14]).clearing).setSlot .h 0x80).setSlot .f 0x10)
        (fun t => (t.pc, t.slot .f, t.slot .h, t.status)) =
      some (0xC002, 0x10, 0x01, .running) := by
  decide

/-- The example of R237. -/
theorem test_rlL :
    seen ((((start 0xC000 [0xCB, 0x15]).clearing).setSlot .l 0x95).setSlot .f 0x10)
        (fun t => (t.pc, t.slot .f, t.slot .l, t.status)) =
      some (0xC002, 0x10, 0x2B, .running) := by
  decide

/-- V44-07. -/
theorem test_rlL_corner :
    seen (((start 0xC000 [0xCB, 0x15]).clearing).setSlot .l 0x40) (fun t => (t.pc, t.slot .f, t.slot .l, t.status)) =
      some (0xC002, 0x00, 0x80, .running) := by
  decide

/-- The example of R238. -/
theorem test_rlA :
    seen ((((start 0xC000 [0xCB, 0x17]).clearing).setSlot .a 0x95).setSlot .f 0x10)
        (fun t => (t.pc, t.slot .f, t.slot .a, t.status)) =
      some (0xC002, 0x10, 0x2B, .running) := by
  decide

/-- V44-06. -/
theorem test_rlA_corner :
    seen ((((start 0xC000 [0xCB, 0x17]).clearing).setSlot .a 0x7F).setSlot .f 0x10)
        (fun t => (t.pc, t.slot .f, t.slot .a, t.status)) =
      some (0xC002, 0x00, 0xFF, .running) := by
  decide

/-! ## Fetch and decode faults -/

/-- V30-02. -/
theorem test_illegalPrimary :
    seen (start 0xC000 [0x76]) (fun t => (t.pc, t.slot .f, t.status)) =
      some (0xC001, 0x00, .faulted { kind := .illegalOpcode 0x76 false, pcStart := 0xC000 }) := by
  decide

/-- V30-06. -/
theorem test_prefixAtTop :
    seen (start 0xFFFE [0xCB]) (fun t => (t.pc, t.slot .f, t.status)) =
      some (0xFFFF, 0x00, .faulted { kind := .unmappedAddress 0xFFFF, pcStart := 0xFFFE }) := by
  decide

/-- V30-07. -/
theorem test_fetchInGap :
    seen (start 0xA000 []) (fun t => (t.pc, t.slot .f, t.status)) =
      some (0xA000, 0x00, .faulted { kind := .unmappedAddress 0xA000, pcStart := 0xA000 }) := by
  decide

/-- V30-08. -/
theorem test_fetchAtTop :
    seen (start 0xFFFF []) (fun t => (t.pc, t.slot .f, t.status)) =
      some (0xFFFF, 0x00, .faulted { kind := .unmappedAddress 0xFFFF, pcStart := 0xFFFF }) := by
  decide

/-- V30-11. -/
theorem test_wordImmediateAtTop :
    seen (start 0xFFFD [0x01, 0x34]) (fun t => (t.pc, t.slot .f, t.status)) =
      some (0xFFFE, 0x00, .faulted { kind := .unmappedAddress 0xFFFF, pcStart := 0xFFFD }) := by
  decide

/-- V30-12. -/
theorem test_byteImmediateAtGap :
    seen (start 0xDFFF [0x06]) (fun t => (t.pc, t.slot .f, t.status)) =
      some (0xE000, 0x00, .faulted { kind := .unmappedAddress 0xE000, pcStart := 0xDFFF }) := by
  decide

/-- V30-10. -/
theorem test_noOperationAtEdge :
    seen (start 0x9FFF [0x00]) (fun t => (t.pc, t.slot .f, t.status)) =
      some (0xA000, 0x00, .running) := by
  decide

/-! ## The end-to-end scenarios and the opcode table's words -/

/-- Scenario A of spec/95_test_vectors.md, at PC = 0x0000 with A = 0x5A. -/
theorem test_scenarioA :
    seen ((start 0x0000 [0xAF]).setSlot .a 0x5A) (fun t => (t.slot .a, t.flag .z, t.pc)) = some (0x00, true, 0x0001) := by
  decide

/-- Scenario C: after the call, a pop returns the return address and SP is restored. -/
theorem test_scenarioC :
    seen ((start 0x0000 [0xCD, 0x00, 0x02]).setSp 0xFFFE) (fun t => match pop t with
      | .ok v u => some (t.pc, t.sp, v, u.sp)
      | .raise _ _ => none) = some (some (0x0200, 0xFFFC, 0x0003, 0xFFFE)) := by
  decide

/-- The table numbers the first byte's bits from 0, and gives RL B's row the word 0xCB10. -/
theorem test_tableWords :
    decodeTableWord 24 0x123431 = some (.ldSpD16 0x1234) ∧ decodeTableWord 16 0xCB10 = some .rlB ∧
      seen (State.reset.withFetchWord 24 0x123431) (fun t => (t.sp, t.pc)) = some (0x1234, 3) := by
  decide

/-! ## Witnesses: states and operands that meet each statement's hypotheses -/

theorem witness_DecodeEncodeRoundTrip : (Instr.cbPrefix 0x16).wf = true ∧ (Instr.ldSpD16 0xFFFF).wf = true := by
  decide

theorem witness_DecodedBytesAreTheEncoding :
    decode [0x01, 0x34, 0x12, 0x00] = .ok (.ldBcD16 0x1234, [0x00]) ∧ decode [0xCB, 0x18] = .ok (.cbPrefix 0x18, []) :=
  ⟨rfl, rfl⟩

theorem witness_IllegalEncodingsFault :
    ((start 0xDFFF [0x76]).status = .running ∧ (start 0xDFFF [0x76]).codeMapped 1 ∧
      illegalPrimary ((start 0xDFFF [0x76]).codeByte 0) = true) ∧
    ((start 0xFFFD [0xCB, 0x16]).status = .running ∧ (start 0xFFFD [0xCB, 0x16]).codeMapped 2 ∧
      (start 0xFFFD [0xCB, 0x16]).codeByte 0 = 0xCB ∧ illegalSecondary ((start 0xFFFD [0xCB, 0x16]).codeByte 1) = true) := by
  unfold State.codeMapped
  decide

theorem witness_LengthFromFirstByte :
    (decode [0xCB, 0x10] = .ok (.rlB, []) ∧ decode [0xCB, 0x16, 0x00] = .ok (.cbPrefix 0x16, [0x00])) ∧
    (decode [0x06, 0x00] = .ok (.ldBD8 0x00, []) ∧ decode [0x06, 0xFF] = .ok (.ldBD8 0xFF, [])) :=
  ⟨⟨rfl, rfl⟩, rfl, rfl⟩

theorem witness_StepRunsDecodedInstruction :
    ((start 0xFFFC [0x01, 0x34, 0x12]).status = .running ∧ (Instr.ldBcD16 0x1234).wf = true ∧
      (start 0xFFFC [0x01, 0x34, 0x12]).codeMapped (Instr.ldBcD16 0x1234).length ∧
      ∀ k < (Instr.ldBcD16 0x1234).length,
        (start 0xFFFC [0x01, 0x34, 0x12]).delegated ((start 0xFFFC [0x01, 0x34, 0x12]).pc + BitVec.ofNat 16 k) = false) ∧
    decode ((start 0xFFFC [0x01, 0x34, 0x12]).codeBytes (Instr.ldBcD16 0x1234).length) = .ok (.ldBcD16 0x1234, []) := by
  unfold State.codeMapped
  exact ⟨by decide, rfl⟩

/-- One state for each of the four clauses; the second and third hold at one address for different opcodes. -/
theorem witness_FetchFaults :
    ((start 0xA000 []).status = .running ∧ (start 0xA000 []).mapped 0xA000 = false ∧
      (start 0xFFFF []).mapped 0xFFFF = false) ∧
    ((start 0xFFFE [0xCB]).mapped 0xFFFE = true ∧ (start 0xFFFE [0xCB]).mapped 0xFFFF = false ∧
      (start 0xFFFE [0xCB]).codeByte 0 = 0xCB) ∧
    ((start 0xFFFE [0x06]).codeByte 0 ∈ lengthTwoOpcodes ∧ (start 0xFFFE [0x01]).codeByte 0 ∈ lengthThreeOpcodes) ∧
    ((start 0xFFFD [0x01]).mapped 0xFFFD = true ∧ (start 0xFFFD [0x01]).mapped 0xFFFE = true ∧
      (start 0xFFFD [0x01]).mapped 0xFFFF = false ∧ (start 0xFFFD [0x01]).codeByte 0 ∈ lengthThreeOpcodes) := by
  decide

theorem witness_StatusTransitions :
    State.reset.status = .running ∧
      (enterFault (.unmappedAddress 0xFFFF) 0xFFFF State.reset).status =
        .faulted { kind := .unmappedAddress 0xFFFF, pcStart := 0xFFFF } := by
  decide

/-- Both sides of every edge of R53's table. -/
theorem witness_RouterFollowsRegionTable :
    ([0x0000, 0x00FE, 0x8000, 0x9FFF, 0xC000, 0xDFFF, 0xFF00, 0xFF4B, 0xFF80, 0xFFFE].all
      fun a => (route .bootMap a).isSome) = true ∧ (route .cartridgeMap 0x3FFF).isSome = true ∧
    ([0x00FF, 0x3FFF, 0x7FFF, 0xA000, 0xBFFF, 0xE000, 0xFEFF, 0xFF4C, 0xFF7F, 0xFFFF].all
      fun a => (route .bootMap a).isNone) = true ∧ route .cartridgeMap 0x4000 = none := by
  decide

theorem witness_RegionsNeverOverlap :
    route .cartridgeMap 0x3FFF = some (imageRegion .cartridgeMap) ∧ imageRegion .bootMap ∈ regionTable .bootMap ∧
      (imageRegion .bootMap).covers 0x00FE = true ∧ (∀ r ∈ regionTable .bootMap, r.covers 0x00FF = false) ∧
      State.reset.config.mapMode = .cartridgeMap ∧ route .cartridgeMap 0x4000 = none := by
  decide

theorem witness_RegionBoundaries : imageRegion .bootMap ∈ regionTable .bootMap := by
  decide

theorem witness_ByteAccessRoutes :
    (State.reset.delegated 0xFFFF = false ∧ route State.reset.config.mapMode 0xFFFF = none) ∧
    (State.reset.delegated 0x3FFF = false ∧ route State.reset.config.mapMode 0x3FFF = some (imageRegion .cartridgeMap) ∧
      (imageRegion .cartridgeMap).writable = false) ∧
    (State.reset.delegated 0xFFFE = false ∧ (route State.reset.config.mapMode 0xFFFE).any (·.writable) = true) := by
  decide

theorem witness_IoDelegation :
    State.reset.delegating.delegated 0xFF00 = true ∧ State.reset.delegating.delegated 0xFF4B = true ∧
      State.reset.delegating.delegated 0xFF4C = false ∧ State.reset.delegated 0xFF00 = false := by
  decide

/-- A stored byte beside another stored byte, and beside one an arbitrary collaborator answers. -/
theorem witness_StoreThenLoad :
    (writeByte 0xFFFE 0x12 State.reset = .ok () (State.reset.poke 0xFFFE 0x12) ∧ State.reset.delegated 0xFFFE = false ∧
      readByte 0xFF80 State.reset = .ok 0x00 State.reset) ∧
    (writeByte 0xFF80 0x12 State.reset.delegating = .ok () (State.reset.delegating.poke 0xFF80 0x12) ∧
      State.reset.delegating.delegated 0xFF80 = false ∧ State.reset.delegating.delegated 0xFF4B = true ∧
      readByte 0xFF4B State.reset.delegating =
        .ok (Config.ioGet 0 0xFF4B) { State.reset.delegating with draws := 1 }) :=
  ⟨⟨rfl, by decide, rfl⟩, rfl, by decide, by decide, rfl⟩

theorem witness_WordAccessLittleEndian :
    State.reset.mapped 0xA000 = false ∧ (State.reset.mapped 0x9FFF = true ∧ State.reset.mapped 0xA000 = false) ∧
    (State.reset.mapped 0xFFFD = true ∧ State.reset.mapped 0xFFFE = true) ∧
    State.reset.writable 0x3FFF = false ∧ (State.reset.writable 0xDFFF = true ∧ State.reset.writable 0xE000 = false) ∧
    (State.reset.writable 0xFF80 = true ∧ State.reset.writable 0xFF81 = true) := by
  decide

/-- Where the first byte faults, where the second does, and where neither does. -/
theorem witness_StackConvention :
    writeWord 0xBFFF 0x1234 (State.reset.setSp 0xC000) = .raise (.unmappedAddress 0xBFFF) (State.reset.setSp 0xC000) ∧
    writeWord 0x9FFF 0x1234 (State.reset.setSp 0xA000) =
      .raise (.unmappedAddress 0xA000) ((State.reset.setSp 0xA000).poke 0x9FFF 0x34) ∧
    writeWord 0xFFFD 0x0034 (State.reset.setSp 0xFFFE) = .ok () ((State.reset.setSp 0xFFFE).poke 0xFFFD 0x34) ∧
    ((State.reset.setSp 0xFFFE).writable 0xFFFD = true ∧ (State.reset.setSp 0xFFFE).writable 0xFFFE = true) ∧
    readWord 0xFFFD (State.reset.setSp 0xFFFC) = .ok 0x0000 (State.reset.setSp 0xFFFC) ∧
    readWord 0xE000 (State.reset.setSp 0xDFFF) = .raise (.unmappedAddress 0xE000) (State.reset.setSp 0xDFFF) ∧
    ((State.reset.setSp 0xFFFC).mapped 0xFFFD = true ∧ (State.reset.setSp 0xFFFC).mapped 0xFFFE = true) :=
  ⟨rfl, rfl, rfl, by decide, rfl, rfl, by decide⟩

theorem witness_PushPopInverse :
    State.reset.writable (0xC001 - 1) = true ∧ State.reset.writable 0xC001 = true ∧
      State.reset.delegated (0xC001 - 1) = false ∧ State.reset.delegated 0xC001 = false ∧
      (State.reset.setSp 0xC001).sp = 0xC001 := by
  decide

theorem witness_TopOfBusAndDefaultStack : State.reset.sp = 0 := by
  decide

theorem witness_RegisterPairs :
    (State.reset.setPair .af 0xABCD).pair .af = 0xABC0 ∧ (State.reset.setPair .de 0xFFFF).pair .de = 0xFFFF ∧
      Slot.b ≠ .a ∧ Slot.b ≠ .f := by
  decide

theorem witness_FlagAccess :
    ((State.reset.setSlot .f 0x5F).setFlag .z true).slot .f = 0xD0 ∧
      ((State.reset.setSlot .f 0xF0).setFlag .c false).slot .f = 0xE0 ∧
      Slot.a ≠ .f := by
  decide

theorem witness_LoadImmediateByte :
    seenOf (exec (.ldLD8 0xFF) State.reset) (fun t => (t.slot .l, t.slot .h)) = some (0xFF, 0x00) := by
  decide

theorem witness_LoadImmediateWord :
    seenOf (exec (.ldHlD16 0x12FF) State.reset) (fun t => (t.slot .h, t.slot .l, t.slot .a)) = some (0x12, 0xFF, 0x00) := by
  decide

/-- A store at the last writable address, and one an arbitrary collaborator receives. -/
theorem witness_StoreResult :
    (State.reset.setPair .bc 0xFFFE).writable ((State.reset.setPair .bc 0xFFFE).pair .bc) = true ∧
      (State.reset.setPair .bc 0xFFFE).delegated 0xFFFE = false ∧
      State.reset.delegating.writable (0xFF00 + zext16 0x4B) = true ∧
      State.reset.delegating.delegated (0xFF00 + zext16 0x4B) = true := by
  decide

theorem witness_StoreThenMoveHl :
    (State.reset.setPair .hl 0x9FFF).writable ((State.reset.setPair .hl 0x9FFF).pair .hl) = true ∧
      (State.reset.setPair .hl 0x9FFF).delegated ((State.reset.setPair .hl 0x9FFF).pair .hl) = false := by
  decide

/-- One address for each of the two clauses, which exclude each other. -/
theorem witness_StoreFaults :
    (State.reset.setPair .hl 0xFFFF).mapped ((State.reset.setPair .hl 0xFFFF).pair .hl) = false ∧
    ((State.reset.setPair .hl 0x3FFF).mapped ((State.reset.setPair .hl 0x3FFF).pair .hl) = true ∧
      (State.reset.setPair .hl 0x3FFF).writable ((State.reset.setPair .hl 0x3FFF).pair .hl) = false) ∧
    State.reset.mapped (0xFF00 + zext16 0x7F) = false := by
  decide

theorem witness_LoadResult :
    (State.reset.setPair .de 0x3FFF).mapped ((State.reset.setPair .de 0x3FFF).pair .de) = true ∧
      State.reset.delegating.mapped (0xFF00 + zext16 0x4B) = true ∧ State.reset.mapped (0xFF00 + zext16 0xFE) = true := by
  decide

theorem witness_LoadThenMoveHl :
    (State.reset.setPair .hl 0xFFFE).mapped ((State.reset.setPair .hl 0xFFFE).pair .hl) = true ∧
      State.reset.mapped (State.reset.pair .hl) = true := by
  decide

theorem witness_ReadFaults :
    (State.reset.setPair .hl 0xE000).mapped ((State.reset.setPair .hl 0xE000).pair .hl) = false ∧
      State.reset.mapped (0xFF00 + zext16 0xFF) = false := by
  decide

theorem witness_RelativeJumps :
    seenOf (exec (.jr 0x80) State.reset) (·.pc) = some 0xFF82 ∧
      seenOf (exec (.jrZ 0x80) State.reset) (·.pc) = some 0x0002 := by
  decide

theorem witness_AbsoluteJumps :
    seenOf (exec (.jpNc 0xFFFF) State.reset) (·.pc) = some 0xFFFF ∧
      seenOf (exec (.jpC 0xFFFF) State.reset) (·.pc) = some 0x0003 := by
  decide

theorem witness_StackWrites :
    (State.reset.setSp 0xFFFE).writable ((State.reset.setSp 0xFFFE).sp - 1) = true ∧
      (State.reset.setSp 0xFFFE).writable (State.reset.setSp 0xFFFE).sp = true ∧
      (State.reset.setSp 0xFFFE).delegated ((State.reset.setSp 0xFFFE).sp - 1) = false ∧
      (State.reset.setSp 0xFFFE).delegated (State.reset.setSp 0xFFFE).sp = false := by
  decide

theorem witness_StackWriteFaults :
    (State.reset.setSp 0xFF80).writable ((State.reset.setSp 0xFF80).sp - 1) = false ∧
    ((State.reset.setSp 0xA000).writable ((State.reset.setSp 0xA000).sp - 1) = true ∧
      (State.reset.setSp 0xA000).writable (State.reset.setSp 0xA000).sp = false) := by
  decide

theorem witness_ReturnResult :
    (State.reset.setSp 0xFFFC).mapped ((State.reset.setSp 0xFFFC).sp + 1) = true ∧
      (State.reset.setSp 0xFFFC).mapped ((State.reset.setSp 0xFFFC).sp + 2) = true := by
  decide

/-- At the top of the stack, and where the address wraps to the image (V42-09). -/
theorem witness_PopResult :
    (State.reset.setSp 0xFFFC).mapped ((State.reset.setSp 0xFFFC).sp + 1) = true ∧
      (State.reset.setSp 0xFFFC).mapped ((State.reset.setSp 0xFFFC).sp + 2) = true ∧
    (State.reset.setSp 0xFFFF).mapped ((State.reset.setSp 0xFFFF).sp + 1) = true ∧
      (State.reset.setSp 0xFFFF).mapped ((State.reset.setSp 0xFFFF).sp + 2) = true := by
  decide

theorem witness_StackReadFaults :
    (State.reset.setSp 0xFFFE).mapped ((State.reset.setSp 0xFFFE).sp + 1) = false ∧
    ((State.reset.setSp 0xDFFE).mapped ((State.reset.setSp 0xDFFE).sp + 1) = true ∧
      (State.reset.setSp 0xDFFE).mapped ((State.reset.setSp 0xDFFE).sp + 2) = false) := by
  decide

theorem witness_CallThenReturn :
    (State.reset.setSp 0xC001).writable ((State.reset.setSp 0xC001).sp - 1) = true ∧
      (State.reset.setSp 0xC001).writable (State.reset.setSp 0xC001).sp = true ∧
      (State.reset.setSp 0xC001).delegated ((State.reset.setSp 0xC001).sp - 1) = false ∧
      (State.reset.setSp 0xC001).delegated (State.reset.setSp 0xC001).sp = false := by
  decide

theorem witness_IncrementByte :
    seenOf (exec .incE (State.reset.setSlot .e 0xFF)) (fun t => (t.slot .e, t.slot .d, t.slot .f)) =
      some (0x00, 0x00, 0xA0) := by
  decide

theorem witness_DecrementByte :
    seenOf (exec .decL (State.reset.setSlot .l 0x01)) (fun t => (t.slot .l, t.slot .h, t.slot .f)) =
      some (0x00, 0x00, 0xC0) := by
  decide

theorem witness_IncrementDecrementWord :
    seenOf (exec .decDe State.reset) (fun t => (t.pair .de, t.pair .hl)) = some (0xFFFF, 0x0000) := by
  decide

/-- A register source, and (HL) at the last mapped address. -/
theorem witness_SubtractResult :
    (Source.slot .a).readable State.reset = true ∧ Source.memHl.readable (State.reset.setPair .hl 0xFFFE) = true ∧
      (Source.imm 0xFF).readable State.reset = true := by
  decide

theorem witness_XorResult :
    (Source.slot .e).readable State.reset = true ∧ Source.memHl.readable (State.reset.setPair .hl 0x3FFF) = true ∧
      (Source.imm 0xFF).readable State.reset = true := by
  decide

theorem witness_CompareResult :
    (Source.slot .l).readable State.reset = true ∧ Source.memHl.readable (State.reset.setPair .hl 0xC000) = true ∧
      (Source.imm 0x00).readable State.reset = true ∧
      Source.memHl.readable (State.reset.delegating.setPair .hl 0xFF4B) = true ∧
      (State.reset.delegating.setPair .hl 0xFF4B).delegated 0xFF4B = true := by
  decide

/-- A state of each mode of `P_RL_NH`. -/
theorem witness_RotateResult :
    State.reset.config.rlNH = .draw ∧ State.reset.keeping.config.rlNH = .unchanged ∧
      State.reset.clearing.config.rlNH = .cleared := by
  decide

/-- Under Unchanged the flags N and H keep their values. -/
theorem test_rotateKeepsFlags :
    seenOf (exec .rlB ((State.reset.keeping.setSlot .b 0x80).setSlot .f 0x60)) (fun t => (t.slot .b, t.slot .f)) =
      some (0x00, 0xF0) := by
  decide

theorem witness_PrefixMarker :
    (Instr.cbPrefix 0x00).wf = true ∧ (Instr.cbPrefix 0x16).wf = true ∧ (Instr.cbPrefix 0xFF).wf = true := by
  decide

theorem witness_FlagsChangedOnlyByTheirWriters :
    (∃ t, exec .xorB State.reset = .next t) ∧ Flag.c ∉ flagsWritten .xorB ∧
    (∃ t, exec (.cbPrefix 0x16) State.reset = .next t) ∧ Flag.z ∉ flagsWritten (.cbPrefix 0x16) :=
  ⟨⟨_, rfl⟩, by decide, ⟨_, rfl⟩, by decide⟩

theorem witness_SlotsChangedOnlyByTheirWriters :
    (∃ t, exec .popAf (State.reset.setSp 0xFFFC) = .next t) ∧ Slot.b ∉ slotsWritten .popAf ∧
    (∃ t, exec (.cbPrefix 0x10) State.reset = .next t) ∧ Slot.c ∉ slotsWritten (.cbPrefix 0x10) :=
  ⟨⟨_, rfl⟩, by decide, ⟨_, rfl⟩, by decide⟩

/-- An instruction that does not write SP, and a push that faults with SP = 0 (R334). -/
theorem witness_StackPointerChangedOnlyByItsWriters :
    ((∃ t, exec .ldMemHlA State.reset = .next t) ∧ writesSp .ldMemHlA = false) ∧
    (State.reset.status = .running ∧
      seenOf (exec .pushBc State.reset) (fun t => decide (t.status ≠ .running)) = some true) :=
  ⟨⟨⟨_, rfl⟩, rfl⟩, by decide⟩

theorem witness_MemoryChangedOnlyWhereStored :
    (∃ t, exec .pushBc (State.reset.setSp 0xFFFE) = .next t) ∧
      0xFFFC ∉ storedAddresses (State.reset.setSp 0xFFFE) .pushBc ∧
      0xFFFD ∈ storedAddresses (State.reset.setSp 0xFFFE) .pushBc ∧
      0xFFFE ∈ storedAddresses (State.reset.setSp 0xFFFE) .pushBc :=
  ⟨⟨_, rfl⟩, by decide⟩

/-- A store outside the I/O block's delegation, and loads and a pop next to it behind an arbitrary collaborator; a load inside
it is no such case. -/
theorem witness_ConfigurationNeverChanges :
    ((∃ t, exec .ldMemHlA (State.reset.setPair .hl 0xFF00) = .next t) ∧
      (∀ b ∈ storedAddresses (State.reset.setPair .hl 0xFF00) .ldMemHlA,
        (State.reset.setPair .hl 0xFF00).delegated b = false) ∧
      (State.reset.setPair .hl 0xFF00).config.io = .storage) ∧
    ((∃ t, exec (.ldhAMem 0x80) State.reset.delegating = .next t) ∧ State.reset.delegating.config.io = .arbitrary ∧
      (∀ b ∈ readAddresses State.reset.delegating (.ldhAMem 0x80), State.reset.delegating.delegated b = false)) ∧
    (∀ b ∈ readAddresses (State.reset.delegating.setSp 0xFF4B) .popBc,
      (State.reset.delegating.setSp 0xFF4B).delegated b = false) ∧
    readAddresses State.reset.delegating (.ldhAMem 0x4B) = [0xFF4B] ∧ State.reset.delegating.delegated 0xFF4B = true := by
  refine ⟨⟨⟨_, rfl⟩, fun _ hb => ?_, rfl⟩, ⟨⟨_, rfl⟩, rfl, fun _ hb => ?_⟩, fun _ hb => ?_, by decide, by decide⟩
  · cases List.mem_singleton.1 hb; decide
  · cases List.mem_singleton.1 hb; decide
  · rcases List.mem_pair.1 hb with rfl | rfl <;> decide

/-- An instruction that transfers no control, and a call that faults. -/
theorem witness_SequentialProgramCounter :
    ((∃ t, exec .nop State.reset = .next t) ∧ transfersControl .nop = false) ∧
    (State.reset.status = .running ∧
      seenOf (exec (.call 0x1234) State.reset) (fun t => decide (t.status ≠ .running)) = some true) :=
  ⟨⟨⟨_, rfl⟩, rfl⟩, by decide⟩

theorem witness_StepKeepsInvariant :
    (start 0xC000 [0x04]).Inv ∧ ∃ t, step (start 0xC000 [0x04]) = .next t :=
  ⟨by decide, _, rfl⟩

theorem witness_OnlyWritableBytesChange :
    (∃ t, step (start 0xC000 [0x77]) = .next t) ∧ (start 0xC000 [0x77]).writable 0x3FFF = false ∧
      (start 0xC000 [0x77]).writable 0xFFFF = false :=
  ⟨⟨_, rfl⟩, by decide⟩

/-- Two states that differ in N and H alone. -/
theorem witness_SubtractAndHalfCarryReadOnlyByPush :
    Instr.jrZ 0x00 ≠ .pushAf ∧
      State.reset.setSlot .f 0x60 =
        { State.reset with regs := { State.reset.regs with f := (State.reset.setSlot .f 0x60).regs.f } } ∧
      (State.reset.setSlot .f 0x60).flag .z = State.reset.flag .z ∧
      (State.reset.setSlot .f 0x60).flag .c = State.reset.flag .c ∧
      (State.reset.setSlot .f 0x60).flag .n ≠ State.reset.flag .n := by
  decide

/-- A construction whose last writable byte and last I/O byte are not zero. -/
def sampleConstruction : Construction where
  config := { mapMode := .bootMap, io := .storage, rlNH := .draw }
  image := List.replicate 255 0x31
  entryPc := 0x0000
  entrySp := 0xFFFE
  initRam := fun _ => 0xAA
  initIo := fun _ => 0xCF

/-- It is constructed, and its map has an address of each kind of storage, here the last of each. -/
theorem witness_ConstructedState :
    (∃ s, State.construct sampleConstruction = some s) ∧
    (route sampleConstruction.config.mapMode 0x00FE).any (·.storage == .readOnlyImage) = true ∧
    (route sampleConstruction.config.mapMode 0xFFFE).any (·.storage == .readWriteMemory) = true ∧
    (route sampleConstruction.config.mapMode 0xFF4B).any (·.storage == .ioDelegation) = true :=
  ⟨⟨_, by simp only [State.construct, sampleConstruction, imageRegion, List.length_replicate, if_true]; rfl⟩, by decide⟩

theorem witness_EndOfRunIsAFixedPoint :
    (start 0xFFFD [0x18, 0xFE]).atEnd ∧ (start 0xFFFD [0x18, 0xFE]).config.io = .storage := by
  unfold State.atEnd State.codeMapped
  decide

/-- One state for each of the five clauses, the last with an entry and without one. -/
theorem witness_TraceNamesDecodedOperation :
    ((start 0xE000 []).status = .running ∧ (start 0xE000 []).mapped 0xE000 = false) ∧
    ((start 0xFFFE [0x76]).mapped 0xFFFE = true ∧ illegalPrimary ((start 0xFFFE [0x76]).codeByte 0) = true) ∧
    ((start 0xFFFE [0x00]).mapped 0xFFFE = true ∧ illegalPrimary ((start 0xFFFE [0x00]).codeByte 0) = false ∧
      (start 0xFFFE [0x00]).codeByte 0 ≠ 0xCB) ∧
    ((start 0xFFFE [0xCB]).codeByte 0 = 0xCB ∧ (start 0xFFFE [0xCB]).mapped (0xFFFE + 1) = false) ∧
    ((start 0xFFFD [0xCB, 0x16]).codeByte 0 = 0xCB ∧ (start 0xFFFD [0xCB, 0x16]).mapped (0xFFFD + 1) = true ∧
      illegalSecondary ((start 0xFFFD [0xCB, 0x16]).codeByte 1) = true ∧
      illegalSecondary ((start 0xFFFD [0xCB, 0x17]).codeByte 1) = false) := by
  decide

end Sys2Proof.Tests
end

/-! PROOFS of the statements on 10_state.md. Two runs side by side: one simulation theorem over all instructions. -/

namespace Sys2Proof.Machine

/-! ## Two runs side by side

A relation of states that every single update keeps is kept by every instruction: both runs then complete, or both raise the
same fault. It is proved once. The invariant is the case of a run beside itself, and the noninterference of N and H
(10_state.md R28) the case of two runs whose states differ in those flags. -/

/-- What two related states must share, and which updates must keep the relation, for the instructions to keep it. Nothing is
asked of the flags N and H. -/
structure Simulation (R : State → State → Prop) : Prop where
  slot : ∀ {s u}, R s u → ∀ {q}, q ≠ .f → u.slot q = s.slot q
  flag_z : ∀ {s u}, R s u → u.flag .z = s.flag .z
  flag_c : ∀ {s u}, R s u → u.flag .c = s.flag .c
  sp : ∀ {s u}, R s u → u.sp = s.sp
  pc : ∀ {s u}, R s u → u.pc = s.pc
  config : ∀ {s u}, R s u → u.config = s.config
  readValue : ∀ {s u}, R s u → ∀ a, u.readValue a = s.readValue a
  setSlot : ∀ {s u}, R s u → ∀ q v, R (s.setSlot q v) (u.setSlot q v)
  setFlag : ∀ {s u}, R s u → ∀ f on, R (s.setFlag f on) (u.setFlag f on)
  drawFlag : ∀ {s u}, R s u → ∀ f, R (s.drawFlag f) (u.drawFlag f)
  setSp : ∀ {s u}, R s u → ∀ v, R (s.setSp v) (u.setSp v)
  setPc : ∀ {s u}, R s u → ∀ v, R (s.setPc v) (u.setPc v)
  afterRead : ∀ {s u}, R s u → ∀ a, R (s.afterRead a) (u.afterRead a)
  store : ∀ {s u}, R s u → ∀ {a}, s.writable a = true → ∀ v, R (s.store a v) (u.store a v)
  enterFault : ∀ {s u}, R s u → ∀ k a, R (enterFault k a s) (enterFault k a u)

/-- The fault of a byte write is a function of the configuration. -/
theorem State.writeFault_congr {s t : State} (h : t.config = s.config) (a : Word) : t.writeFault a = s.writeFault a := by
  rw [State.writeFault, State.writeFault, State.mapped_congr h]

/-- Two sequences of sub-steps answer alike: both complete with one value, or both raise one fault, in related states. -/
inductive Result.Alike (R : State → State → Prop) {α : Type} : Result α → Result α → Prop
  | ok {v : α} {s u : State} : R s u → Result.Alike R (.ok v s) (.ok v u)
  | raise {k : FaultKind} {s u : State} : R s u → Result.Alike R (.raise k s) (.raise k u)

theorem Result.Alike.bind {R : State → State → Prop} {α β : Type} {r r' : Result α} {k k' : α → State → Result β}
    (h : Result.Alike R r r') (hk : ∀ v s u, R s u → Result.Alike R (k v s) (k' v u)) :
    Result.Alike R (r.bind k) (r'.bind k') := by
  cases h with
  | ok h => exact hk _ _ _ h
  | raise h => exact .raise h

theorem Result.Alike.final {R : State → State → Prop}
    (hf : ∀ {s u}, R s u → ∀ k a, R (enterFault k a s) (enterFault k a u))
    {r r' : Result Unit} (h : Result.Alike R r r') (start : Word) : R (r.final start) (r'.final start) := by
  cases h with
  | ok h => exact h
  | raise h => exact hf h _ _

namespace Simulation

section
variable {R : State → State → Prop} (hR : Simulation R) {s u : State}
include hR

/-! ### Operands -/

theorem pair_eq (h : R s u) {p : Pair} (hp : p ≠ .af) : u.pair p = s.pair p := by
  have hhi : p.hi ≠ .f := by cases p <;> decide
  have hlo : p.lo ≠ .f := by cases p <;> first | exact absurd rfl hp | decide
  rw [State.pair, State.pair, hR.slot h hhi, hR.slot h hlo]

theorem setPair_rel (h : R s u) (p : Pair) (v : Word) : R (s.setPair p v) (u.setPair p v) :=
  hR.setSlot (hR.setSlot h _ _) _ _

theorem advance_rel (h : R s u) (n : Word) : R (s.advance n) (u.advance n) := by
  have hpc := hR.setPc h (s.pc + n)
  rwa [← show u.advance n = u.setPc (s.pc + n) by rw [← hR.pc h]; rfl] at hpc

theorem address_eq (h : R s u) (m : MemOperand) : m.address u = m.address s := by
  cases m with
  | bc | de | hl | hlInc | hlDec => exact hR.pair_eq h (by decide)
  | ioImm o => rfl
  | ioC => simp only [MemOperand.address, hR.slot h (show Slot.c ≠ .f by decide)]

theorem post_rel (h : R s u) (m : MemOperand) (t : Word) : R (m.post t s) (m.post t u) := by
  cases m with
  | hlInc | hlDec => exact hR.setPair_rel h _ _
  | bc | de | hl | ioImm _ | ioC => exact h

theorem get_eq (h : R s u) {w : WordOperand} (hw : w ≠ .pair .af) : w.get u = w.get s := by
  cases w with
  | pair p => exact hR.pair_eq h fun e => hw (by rw [e])
  | sp => exact hR.sp h

theorem set_rel (h : R s u) (w : WordOperand) (v : Word) : R (w.set v s) (w.set v u) := by
  cases w with
  | pair p => exact hR.setPair_rel h p v
  | sp => exact hR.setSp h v

theorem holds_eq (h : R s u) (k : Cond) : k.holds u = k.holds s := by
  cases k <;> simp [Cond.holds, hR.flag_z h, hR.flag_c h]

/-! ### Reads, writes and the stack -/

theorem readByte_alike (h : R s u) (a : Word) : Result.Alike R (readByte a s) (readByte a u) := by
  have hm : u.mapped a = s.mapped a := State.mapped_congr (hR.config h) a
  cases hs : s.mapped a with
  | false => rw [readByte_raise hs, readByte_raise (hm.trans hs)]; exact .raise h
  | true => rw [readByte_ok hs, readByte_ok (hm.trans hs), hR.readValue h]; exact .ok (hR.afterRead h a)

theorem writeByte_alike (h : R s u) (a : Word) (v : Byte) : Result.Alike R (writeByte a v s) (writeByte a v u) := by
  have hw : u.writable a = s.writable a := State.writable_congr (hR.config h) a
  cases hs : s.writable a with
  | false =>
    rw [writeByte_raise hs, writeByte_raise (hw.trans hs), State.writeFault_congr (hR.config h)]
    exact .raise h
  | true => rw [writeByte_ok hs, writeByte_ok (hw.trans hs)]; exact .ok (hR.store h hs v)

theorem readWord_alike (h : R s u) (a : Word) : Result.Alike R (readWord a s) (readWord a u) :=
  (hR.readByte_alike h a).bind fun _ _ _ h1 => (hR.readByte_alike h1 _).bind fun _ _ _ h2 => .ok h2

theorem writeWord_alike (h : R s u) (a v : Word) : Result.Alike R (writeWord a v s) (writeWord a v u) :=
  (hR.writeByte_alike h a _).bind fun _ _ _ h1 => hR.writeByte_alike h1 _ _

theorem push_alike (h : R s u) (v : Word) : Result.Alike R (push v s) (push v u) := by
  unfold push
  rw [hR.sp h]
  refine (hR.writeWord_alike h _ v).bind fun _ s1 u1 h1 => ?_
  rw [hR.sp h1]
  exact .ok (hR.setSp h1 _)

theorem pop_alike (h : R s u) : Result.Alike R (pop s) (pop u) := by
  unfold pop
  rw [hR.sp h]
  refine (hR.readWord_alike h _).bind fun _ s1 u1 h1 => ?_
  rw [hR.sp h1]
  exact .ok (hR.setSp h1 _)

theorem sourceRead_alike (h : R s u) {x : Source} (hx : x ≠ .slot .f) : Result.Alike R (x.read s) (x.read u) := by
  cases x with
  | slot r => rw [Source.read, Source.read, hR.slot h fun e => hx (by rw [e])]; exact .ok h
  | memHl => rw [Source.read, Source.read, hR.pair_eq h (by decide)]; exact hR.readByte_alike h _
  | imm d => exact .ok h

theorem rotateNH_rel (h : R s u) : R (rotateNH s) (rotateNH u) := by
  unfold rotateNH
  rw [hR.config h]
  split
  · exact hR.drawFlag (hR.drawFlag h _) _
  · exact h
  · exact hR.setFlag (hR.setFlag h _ _) _ _

/-! ### The sub-steps of the instructions -/

theorem storeSlot_alike (h : R s u) (m : MemOperand) {r : Slot} (hr : r ≠ .f) :
    Result.Alike R (storeSlot m r s) (storeSlot m r u) := by
  unfold storeSlot
  simp only [hR.address_eq h, hR.slot h hr]
  exact (hR.writeByte_alike h _ _).bind fun _ _ _ h1 => .ok (hR.post_rel h1 m _)

theorem loadSlot_alike (h : R s u) (r : Slot) (m : MemOperand) : Result.Alike R (loadSlot r m s) (loadSlot r m u) := by
  unfold loadSlot
  simp only [hR.address_eq h]
  exact (hR.readByte_alike h _).bind fun _ _ _ h1 => .ok (hR.post_rel (hR.setSlot h1 _ _) m _)

theorem loadByte_alike (h : R s u) (r : Slot) (d : Byte) : Result.Alike R (loadByte r d s) (loadByte r d u) :=
  .ok (hR.setSlot h r d)

theorem loadWord_alike (h : R s u) (w : WordOperand) (v : Word) : Result.Alike R (loadWord w v s) (loadWord w v u) :=
  .ok (hR.set_rel h w v)

theorem incWord_alike (h : R s u) {w : WordOperand} (hw : w ≠ .pair .af) : Result.Alike R (incWord w s) (incWord w u) := by
  rw [incWord, incWord, hR.get_eq h hw]
  exact .ok (hR.set_rel h w _)

theorem decWord_alike (h : R s u) {w : WordOperand} (hw : w ≠ .pair .af) : Result.Alike R (decWord w s) (decWord w u) := by
  rw [decWord, decWord, hR.get_eq h hw]
  exact .ok (hR.set_rel h w _)

theorem incSlot_alike (h : R s u) {r : Slot} (hr : r ≠ .f) : Result.Alike R (incSlot r s) (incSlot r u) := by
  simp only [incSlot, incByte, hR.slot h hr]
  exact .ok (hR.setSlot (hR.setFlag (hR.setFlag (hR.setFlag h _ _) _ _) _ _) _ _)

theorem decSlot_alike (h : R s u) {r : Slot} (hr : r ≠ .f) : Result.Alike R (decSlot r s) (decSlot r u) := by
  simp only [decSlot, decByte, hR.slot h hr]
  exact .ok (hR.setSlot (hR.setFlag (hR.setFlag (hR.setFlag h _ _) _ _) _ _) _ _)

theorem subtract_rel (h : R s u) (a b : Byte) : R (subtract a b s).2 (subtract a b u).2 :=
  hR.setFlag (hR.setFlag (hR.setFlag (hR.setFlag h _ _) _ _) _ _) _ _

theorem subFromA_alike (h : R s u) {x : Source} (hx : x ≠ .slot .f) : Result.Alike R (subFromA x s) (subFromA x u) := by
  refine (hR.sourceRead_alike h hx).bind fun v s1 u1 h1 => ?_
  rw [hR.slot h1 (show Slot.a ≠ .f by decide)]
  exact .ok (hR.setSlot (hR.subtract_rel h1 _ _) _ _)

theorem xorIntoA_alike (h : R s u) {x : Source} (hx : x ≠ .slot .f) : Result.Alike R (xorIntoA x s) (xorIntoA x u) := by
  refine (hR.sourceRead_alike h hx).bind fun v s1 u1 h1 => ?_
  rw [hR.slot h1 (show Slot.a ≠ .f by decide)]
  exact .ok (hR.setSlot (hR.setFlag h1 _ _) _ _)

theorem compareA_alike (h : R s u) {x : Source} (hx : x ≠ .slot .f) : Result.Alike R (compareA x s) (compareA x u) := by
  refine (hR.sourceRead_alike h hx).bind fun v s1 u1 h1 => ?_
  rw [hR.slot h1 (show Slot.a ≠ .f by decide)]
  exact .ok (hR.subtract_rel h1 _ _)

theorem rotateSlot_alike (h : R s u) {r : Slot} (hr : r ≠ .f) : Result.Alike R (rotateSlot r s) (rotateSlot r u) := by
  simp only [rotateSlot, shiftLeft, hR.slot h hr, hR.flag_c h]
  exact .ok (hR.setSlot (hR.rotateNH_rel (hR.setFlag (hR.setFlag h _ _) _ _)) _ _)

theorem jumpRelative_alike (h : R s u) (k : Cond) (o : Byte) : Result.Alike R (jumpRelative k o s) (jumpRelative k o u) := by
  unfold jumpRelative
  rw [hR.holds_eq h]
  split
  · exact .ok (hR.advance_rel h _)
  · exact .ok h

theorem jumpAbsolute_alike (h : R s u) (k : Cond) (t : Word) : Result.Alike R (jumpAbsolute k t s) (jumpAbsolute k t u) := by
  unfold jumpAbsolute
  rw [hR.holds_eq h]
  split
  · exact .ok (hR.setPc h _)
  · exact .ok h

theorem callTo_alike (h : R s u) (t : Word) : Result.Alike R (callTo t s) (callTo t u) := by
  unfold callTo
  rw [hR.pc h]
  exact (hR.push_alike h _).bind fun _ _ _ h1 => .ok (hR.setPc h1 t)

theorem returnToCaller_alike (h : R s u) : Result.Alike R (returnToCaller s) (returnToCaller u) :=
  (hR.pop_alike h).bind fun v _ _ h1 => .ok (hR.setPc h1 v)

theorem pushPair_alike (h : R s u) {p : Pair} (hp : u.pair p = s.pair p) :
    Result.Alike R (pushPair p s) (pushPair p u) := by
  rw [pushPair, pushPair, hp]
  exact hR.push_alike h _

theorem popPair_alike (h : R s u) (p : Pair) : Result.Alike R (popPair p s) (popPair p u) :=
  (hR.pop_alike h).bind fun v _ _ h1 => .ok (hR.setPair_rel h1 p v)

theorem escapeTo_alike (h : R s u) (b : Byte) : Result.Alike R (escapeTo b s) (escapeTo b u) := by
  unfold escapeTo
  rcases rotateRegister_cases b with hb | ⟨r, hb, hr, _⟩ <;> rw [hb]
  · exact .raise h
  · exact hR.rotateSlot_alike h hr

/-- The sub-steps of an instruction answer alike from related states; PUSH AF, the one reader of N and H, where AF is the
same. -/
theorem bodyOf_alike (h : R s u) {i : Instr} (hi : i = .pushAf → u.pair .af = s.pair .af) :
    Result.Alike R (bodyOf i s) (bodyOf i u) := by
  cases i
  case nop => exact .ok h
  case ldBcD16 | ldDeD16 | ldHlD16 | ldSpD16 => exact hR.loadWord_alike h _ _
  case ldBD8 | ldCD8 | ldDD8 | ldED8 | ldHD8 | ldLD8 | ldAD8 => exact hR.loadByte_alike h _ _
  case incBc | incDe | incHl | incSp => exact hR.incWord_alike h (by decide)
  case decBc | decDe | decHl | decSp => exact hR.decWord_alike h (by decide)
  case incA | incB | incC | incD | incE | incH | incL => exact hR.incSlot_alike h (by decide)
  case decA | decB | decC | decD | decE | decH | decL => exact hR.decSlot_alike h (by decide)
  case ldMemBcA | ldMemDeA | ldMemHlIncA | ldMemHlDecA | ldMemHlA | ldMemHlB | ldMemHlC | ldMemHlD | ldMemHlE | ldMemHlH
      | ldMemHlL | ldhMemA | ldMemCA => exact hR.storeSlot_alike h _ (by decide)
  case ldAMemBc | ldAMemDe | ldAMemHlInc | ldAMemHlDec | ldAMemHl | ldBMemHl | ldCMemHl | ldDMemHl | ldEMemHl | ldHMemHl
      | ldLMemHl | ldhAMem | ldAMemC => exact hR.loadSlot_alike h _ _
  case subA | subB | subC | subD | subE | subH | subL | subMemHl | subD8 => exact hR.subFromA_alike h nofun
  case xorA | xorB | xorC | xorD | xorE | xorH | xorL | xorMemHl | xorD8 => exact hR.xorIntoA_alike h nofun
  case cpA | cpB | cpC | cpD | cpE | cpH | cpL | cpMemHl | cpD8 => exact hR.compareA_alike h nofun
  case rla | rlA | rlB | rlC | rlD | rlE | rlH | rlL => exact hR.rotateSlot_alike h (by decide)
  case jr | jrNz | jrZ | jrNc | jrC => exact hR.jumpRelative_alike h _ _
  case jp | jpNz | jpZ | jpNc | jpC => exact hR.jumpAbsolute_alike h _ _
  case call t => exact hR.callTo_alike h t
  case ret => exact hR.returnToCaller_alike h
  case pushBc | pushDe | pushHl => exact hR.pushPair_alike h (hR.pair_eq h (by decide))
  case pushAf => exact hR.pushPair_alike h (hi rfl)
  case popAf | popBc | popDe | popHl => exact hR.popPair_alike h _
  case cbPrefix b => exact hR.escapeTo_alike h b

/-- Related states have related next states under every instruction; under PUSH AF where AF is the same. -/
theorem exec_rel (h : R s u) {i : Instr} (hi : i = .pushAf → u.pair .af = s.pair .af) :
    ∃ t w, exec i s = .next t ∧ exec i u = .next w ∧ R t w := by
  refine ⟨_, _, exec_final i s, exec_final i u, ?_⟩
  rw [hR.pc h]
  exact (hR.bodyOf_alike (hR.advance_rel h _) (by simpa using hi)).final hR.enterFault _

end

end Simulation

end Sys2Proof.Machine

/-! PROOFS of the statements on 10_state.md. What keeps the invariant, and what a fetch and a step leave. -/

namespace Sys2Proof.Machine

/-! ## The invariant (10_state.md R26, 20_memory.md R53, R59) -/

/-- The invariant looks at the memory, the low nibble of F, the configuration and the events alone. -/
theorem State.Inv.of_eq {s t : State} (h : s.Inv) (hf : t.regs.f &&& 0x0F = 0) (hm : t.mem = s.mem)
    (hc : t.config = s.config) (ho : t.ioOut = s.ioOut) : t.Inv := by
  obtain ⟨hwf, hmapped, -, hevents, hstorage⟩ := h
  refine ⟨hm ▸ hwf, fun c hcm => ?_, hf, ho ▸ hevents, fun hio => ho.trans (hstorage (hc ▸ hio))⟩
  rw [State.mapped_congr hc]
  exact hmapped c (hm ▸ hcm)

/-- A slot write keeps the low nibble of F zero, F's own included (10_state.md R26). -/
theorem State.setSlot_f_low {s : State} (h : s.regs.f &&& 0x0F = 0) (r : Slot) (v : Byte) :
    (s.setSlot r v).regs.f &&& 0x0F = 0 := by
  cases r
  case f => simp [State.setSlot, BitVec.and_assoc]
  all_goals exact h

theorem State.Inv.setSlot {s : State} (h : s.Inv) (r : Slot) (v : Byte) : (s.setSlot r v).Inv :=
  h.of_eq (State.setSlot_f_low h.2.2.1 r v) (by simp) (by simp) (by simp)

/-- A store at a writable address lists a mapped address, or sends an event of the I/O block (20_memory.md R57, R59). -/
theorem State.Inv.store {s : State} (h : s.Inv) {a : Word} (ha : s.writable a = true) (v : Byte) : (s.store a v).Inv := by
  obtain ⟨hwf, hmapped, hf, hevents, hstorage⟩ := h
  cases hd : s.delegated a with
  | true =>
    obtain ⟨hio, hlow, hhigh⟩ := delegated_range hd
    have hs : s.store a v = { s with ioOut := (a.toNat, v) :: s.ioOut } := by simp [State.store, hd]
    rw [hs]
    refine ⟨hwf, hmapped, hf, fun c hc => ?_, fun hst => absurd (hio.symm.trans hst) (by decide)⟩
    rcases List.mem_cons.1 hc with rfl | hc
    · exact ⟨hlow, hhigh⟩
    · exact hevents c hc
  | false =>
    have hs : s.store a v = { s with mem := s.mem.set a.toNat v } := by simp [State.store, hd]
    rw [hs]
    refine ⟨Memory.wf_set hwf a.isLt v, fun c hc => ?_, hf, hevents, hstorage⟩
    rcases Memory.mem_set hc with ⟨rfl, -⟩ | ⟨hc, -⟩
    · rw [BitVec.ofNat_toNat, BitVec.setWidth_eq]; exact mapped_of_writable ha
    · exact hmapped c hc

/-- A state beside itself, with the invariant. -/
def InvBeside (s u : State) : Prop := u = s ∧ s.Inv

/-- Every update keeps the invariant. -/
theorem simulation_invBeside : Simulation InvBeside where
  slot := by rintro s _ ⟨rfl, -⟩ q -; rfl
  flag_z := by rintro s _ ⟨rfl, -⟩; rfl
  flag_c := by rintro s _ ⟨rfl, -⟩; rfl
  sp := by rintro s _ ⟨rfl, -⟩; rfl
  pc := by rintro s _ ⟨rfl, -⟩; rfl
  config := by rintro s _ ⟨rfl, -⟩; rfl
  readValue := by rintro s _ ⟨rfl, -⟩ a; rfl
  setSlot := by rintro s _ ⟨rfl, h⟩ q v; exact ⟨rfl, h.setSlot q v⟩
  setFlag := by rintro s _ ⟨rfl, h⟩ f on; exact ⟨rfl, h.setSlot .f _⟩
  drawFlag := by rintro s _ ⟨rfl, h⟩ f; exact ⟨rfl, h.setSlot .f _⟩
  setSp := by rintro s _ ⟨rfl, h⟩ v; exact ⟨rfl, h⟩
  setPc := by rintro s _ ⟨rfl, h⟩ v; exact ⟨rfl, h⟩
  afterRead := by
    rintro s _ ⟨rfl, h⟩ a
    exact ⟨rfl, h.of_eq (by rw [State.afterRead_regs]; exact h.2.2.1) (by simp) (by simp) (by simp)⟩
  store := by rintro s _ ⟨rfl, h⟩ a ha v; exact ⟨rfl, h.store ha v⟩
  enterFault := by rintro s _ ⟨rfl, h⟩ k a; exact ⟨rfl, h⟩

/-- Every instruction keeps the invariant. -/
theorem exec_keeps_inv {i : Instr} {s t : State} (hi : s.Inv) (h : exec i s = .next t) : t.Inv := by
  obtain ⟨t', w, ht, -, -, hInv⟩ := simulation_invBeside.exec_rel ⟨rfl, hi⟩ (i := i) fun _ => rfl
  cases ht.symm.trans h
  exact hInv

/-! ## Fetching -/

theorem imm8_preserves {β : Type} {g : State → β} (h : ∀ u a, g (u.afterRead a) = g u)
    (hpc : ∀ u n, g (u.advance n) = g u) (s : State) : g (imm8 s).state = g s := by
  unfold imm8
  rw [Result.bind_preserves (g := g), readByte_preserves h]
  intro v u
  exact hpc _ _

theorem imm16_preserves {β : Type} {g : State → β} (h : ∀ u a, g (u.afterRead a) = g u)
    (hpc : ∀ u n, g (u.advance n) = g u) (s : State) : g (imm16 s).state = g s := by
  unfold imm16
  rw [Result.bind_preserves (g := g), readWord_preserves h]
  intro v u
  exact hpc _ _

/-- A fetch leaves what its reads and moving PC leave, whether it completes or raises. -/
theorem fetch_preserves {β : Type} {g : State → β} (h : ∀ u a, g (u.afterRead a) = g u)
    (hpc : ∀ u n, g (u.advance n) = g u) (s : State) : g (fetch s).state = g s := by
  unfold fetch
  rw [Result.bind_preserves (g := g), readByte_preserves h]
  intro b u
  simp only
  split
  · exact hpc _ _
  · exact hpc _ _
  · rw [Result.bind_preserves (g := g) (fun _ _ => rfl), imm8_preserves h hpc, hpc]
  · rw [Result.bind_preserves (g := g) (fun _ _ => rfl), imm16_preserves h hpc, hpc]
  · rw [Result.bind_preserves (g := g) (fun _ _ => rfl), imm8_preserves h hpc, hpc]

/-- A step from Running takes the fault its fetch raised, or runs an instruction from the state its fetch left (30_encoding.md
R90). -/
theorem step_cases {s : State} (hr : s.status = .running) :
    (∃ k, step s = .next (enterFault k s.pc (fetch s).state)) ∨
      ∃ i, step s = exec i ((fetch s).state.setPc s.pc) := by
  cases hf : fetch s with
  | raise k s1 => exact .inl ⟨k, step_raise hr hf⟩
  | ok i s1 => exact .inr ⟨i, step_ok hr hf⟩

theorem step_faulted {s : State} {r : FaultRecord} (h : s.status = .faulted r) : step s = .fault (.engineStopped r) := by
  simp only [step, h]

theorem step_running {s t : State} (h : step s = .next t) : s.status = .running := by
  cases hs : s.status with
  | running => rfl
  | faulted r => rw [step_faulted hs] at h; cases h

theorem fetch_keeps_inv {s : State} (h : s.Inv) : (fetch s).state.Inv := by
  have hregs : (fetch s).state.regs = s.regs := fetch_preserves State.afterRead_regs State.advance_regs s
  exact h.of_eq (hregs ▸ h.2.2.1) (fetch_preserves State.afterRead_mem State.advance_mem s)
    (fetch_preserves State.afterRead_config State.advance_config s)
    (fetch_preserves State.afterRead_ioOut State.advance_ioOut s)

/-- Settles O54: the fetch and a taken fault touch nothing the invariant looks at, and the instruction keeps it. -/
theorem stepKeepsInvariant : Obligations.StepKeepsInvariant := by
  unfold Obligations.StepKeepsInvariant
  intro s t hi h
  have hfetch : (fetch s).state.Inv := fetch_keeps_inv hi
  rcases step_cases (step_running h) with ⟨k, hk⟩ | ⟨i, hx⟩
  · cases hk.symm.trans h
    exact hfetch
  · exact exec_keeps_inv (s := (fetch s).state.setPc s.pc) hfetch (hx.symm.trans h)

end Sys2Proof.Machine

/-! PROOFS of the statements on 10_state.md. Faults, SP, PC, flags and slots over all instructions. -/

namespace Sys2Proof.Machine

/-! ## Taking a fault (60_exceptions.md R301 to R303) -/

/-- The status an instruction leaves: the one it began in, or the fault it took, which names the instruction's address. -/
theorem exec_status (i : Instr) (s : State) : ∃ t, exec i s = .next t ∧
    (t.status = s.status ∨ ∃ k, t.status = .faulted { kind := k, pcStart := s.pc }) := by
  refine ⟨_, exec_final i s, ?_⟩
  have hs := bodyOf_status i (s.advance (BitVec.ofNat 16 i.length))
  cases hb : bodyOf i (s.advance (BitVec.ofNat 16 i.length)) with
  | ok _ u => rw [hb] at hs; exact .inl hs
  | raise k u => exact .inr ⟨k, rfl⟩

/-- Settles O8: a step from Running takes its fetch's fault or runs an instruction, which writes the status only by a fault. -/
theorem statusTransitions : Obligations.StatusTransitions := by
  unfold Obligations.StatusTransitions
  refine ⟨rfl, fun s hr => ?_, fun s r => step_faulted⟩
  rcases step_cases hr with ⟨k, hk⟩ | ⟨i, hx⟩
  · exact ⟨_, hk, .inr ⟨k, rfl⟩⟩
  · obtain ⟨t, ht, hst⟩ := exec_status i ((fetch s).state.setPc s.pc)
    have hfetch : (fetch s).state.status = s.status := fetch_preserves State.afterRead_status State.advance_status s
    rw [State.setPc_status, hfetch, hr] at hst
    exact ⟨t, hx.trans ht, hst⟩

/-- An instruction that leaves Running raised: its next state is the fault taken in the state its sub-steps left. -/
theorem exec_faulted {i : Instr} {s t : State} (h : exec i s = .next t) (hr : s.status = .running)
    (ht : t.status ≠ .running) :
    ∃ k u, bodyOf i (s.advance (BitVec.ofNat 16 i.length)) = .raise k u ∧ t = enterFault k s.pc u := by
  cases (exec_final i s).symm.trans h
  have hs := bodyOf_status i (s.advance (BitVec.ofNat 16 i.length))
  cases hb : bodyOf i (s.advance (BitVec.ofNat 16 i.length)) with
  | ok _ u => rw [hb] at hs ht; exact absurd (hs.trans hr) ht
  | raise k u => exact ⟨k, u, rfl, rfl⟩

/-- A sequence whose last part completes raises only what its first part raises. -/
theorem Result.bind_eq_raise {α β : Type} {r : Result α} {c : α → State → β} {n : α → State → State}
    {k : FaultKind} {t : State} (h : (r.bind fun v s => .ok (c v s) (n v s)) = .raise k t) : r = .raise k t := by
  cases r with
  | ok v s => cases h
  | raise f s => cases h; rfl

/-- A push that raises leaves what the stores of its bytes leave: SP does not move (42_stack.md R160). -/
theorem push_raise_preserves {β : Type} {g : State → β} (hg : ∀ u x w, g (u.store x w) = g u) {v : Word} {s t : State}
    {k : FaultKind} (h : push v s = .raise k t) : g t = g s := by
  have hw := writeWord_preserves (g := g) (a := s.sp - 1) (v := v) (s := s) fun u x w _ => hg u x w
  rwa [Result.bind_eq_raise (r := writeWord (s.sp - 1) v s) h] at hw

/-- A pop that raises leaves what its reads leave: SP does not move (42_stack.md R161). -/
theorem pop_raise_preserves {β : Type} {g : State → β} (hg : ∀ u a, g (u.afterRead a) = g u) {s t : State}
    {k : FaultKind} (h : pop s = .raise k t) : g t = g s := by
  have hr := readWord_preserves hg (s.sp + 1) s
  rwa [Result.bind_eq_raise (r := readWord (s.sp + 1) s) h] at hr

/-! ## SP and PC (10_state.md R30, R32) -/

/-- The sub-steps of an instruction that does not write SP leave it. -/
theorem bodyOf_sp {i : Instr} (h : writesSp i = false) (s : State) : (bodyOf i s).state.sp = s.sp := by
  cases i
  case ldSpD16 | incSp | decSp | call | ret | pushBc | pushDe | pushHl | pushAf | popBc | popDe | popHl | popAf => cases h
  all_goals simp [bodyOf]

/-- The sub-steps of an instruction that transfers no control leave PC. -/
theorem bodyOf_pc {i : Instr} (h : transfersControl i = false) (s : State) : (bodyOf i s).state.pc = s.pc := by
  cases i
  case jr | jrNz | jrZ | jrNc | jrC | jp | jpNz | jpZ | jpNc | jpC | call | ret => cases h
  all_goals simp [bodyOf]

/-- Sub-steps that raise leave SP: what writes it comes after everything that can raise. -/
theorem bodyOf_raise_sp {i : Instr} {s u : State} {k : FaultKind} (h : bodyOf i s = .raise k u) : u.sp = s.sp := by
  cases hw : writesSp i with
  | false => rw [← bodyOf_sp hw s, h, Result.state_raise]
  | true =>
    cases i
    case ldSpD16 | incSp | decSp => cases h
    case call => exact push_raise_preserves State.store_sp (Result.bind_eq_raise h)
    case pushBc | pushDe | pushHl | pushAf => exact push_raise_preserves State.store_sp h
    case ret | popBc | popDe | popHl | popAf => exact pop_raise_preserves State.afterRead_sp (Result.bind_eq_raise h)
    all_goals cases hw

/-- Sub-steps that raise leave PC: a jump, call or return writes it last. -/
theorem bodyOf_raise_pc {i : Instr} {s u : State} {k : FaultKind} (h : bodyOf i s = .raise k u) : u.pc = s.pc := by
  cases hc : transfersControl i with
  | false => rw [← bodyOf_pc hc s, h, Result.state_raise]
  | true =>
    cases i
    case jr | jrNz | jrZ | jrNc | jrC | jp | jpNz | jpZ | jpNc | jpC => cases h
    case call => exact push_raise_preserves State.store_pc (Result.bind_eq_raise h)
    case ret => exact pop_raise_preserves State.afterRead_pc (Result.bind_eq_raise h)
    all_goals cases hc

/-- Settles O49: no other instruction's sub-steps write SP, and those that write it do so last. -/
theorem stackPointerChangedOnlyByItsWriters : Obligations.StackPointerChangedOnlyByItsWriters := by
  unfold Obligations.StackPointerChangedOnlyByItsWriters
  intro i s t h
  refine ⟨fun hw => exec_preserves (g := State.sp) h (fun _ _ _ => rfl) (bodyOf_sp hw _), fun hr ht => ?_⟩
  obtain ⟨k, u, hb, rfl⟩ := exec_faulted h hr ht
  rw [enterFault_sp, bodyOf_raise_sp hb, State.advance_sp]

/-- Settles O52: PC moves past the instruction's bytes first, and only a completing control transfer moves it again. -/
theorem sequentialProgramCounter : Obligations.SequentialProgramCounter := by
  unfold Obligations.SequentialProgramCounter
  rintro i s t h (hc | ⟨hr, ht⟩)
  · exact exec_preserves (g := State.pc) h (fun _ _ _ => rfl) (bodyOf_pc hc _)
  · obtain ⟨k, u, hb, rfl⟩ := exec_faulted h hr ht
    rw [enterFault_pc, bodyOf_raise_pc hb, State.advance_pc]

/-! ## Flags and slots (10_state.md R28, R29) -/

/-- The sub-steps of an instruction leave the flags its rule does not write. -/
theorem bodyOf_flag {i : Instr} {f : Flag} (h : f ∉ flagsWritten i) (s : State) :
    (bodyOf i s).state.flag f = s.flag f := by
  have hall : f ∈ [Flag.z, .n, .h, .c] := by cases f <;> decide
  cases i
  case subA | subB | subC | subD | subE | subH | subL | subMemHl | subD8 | cpA | cpB | cpC | cpD | cpE | cpH | cpL | cpMemHl
      | cpD8 | rla | rlA | rlB | rlC | rlD | rlE | rlH | rlL | popAf => exact absurd hall h
  case incA | incB | incC | incD | incE | incH | incL => exact incSlot_flag _ s f (by decide) h
  case decA | decB | decC | decD | decE | decH | decL => exact decSlot_flag _ s f (by decide) h
  case xorA | xorB | xorC | xorD | xorE | xorH | xorL | xorMemHl | xorD8 =>
    exact xorIntoA_flag _ s f (List.ne_of_not_mem_cons h)
  case cbPrefix b =>
    rcases rotateRegister_cases b with hb | ⟨r, -, -, hb⟩
    · exact escapeTo_flag b s f hb
    · exact absurd hall (by simpa [flagsWritten, hb] using h)
  all_goals simp [bodyOf]

/-- Settles O47: neither the sub-steps nor a taken fault change another flag. -/
theorem flagsChangedOnlyByTheirWriters : Obligations.FlagsChangedOnlyByTheirWriters := by
  unfold Obligations.FlagsChangedOnlyByTheirWriters
  intro i s t f h hf
  rw [← State.flag_advance s (BitVec.ofNat 16 i.length) f]
  exact exec_preserves (g := fun u => u.flag f) h (fun k a u => flag_enterFault k a u f) (bodyOf_flag hf _)

/-- The sub-steps of an instruction leave the slots its rule does not write. -/
theorem bodyOf_slot {i : Instr} {q : Slot} (h : q ∉ slotsWritten i) (s : State) :
    (bodyOf i s).state.slot q = s.slot q := by
  cases i
  case cbPrefix b =>
    refine escapeTo_slot b s q fun r hr => ?_
    simpa [slotsWritten, hr] using h
  case popAf | popBc | popDe | popHl =>
    exact popPair_slot _ s q (List.ne_of_not_mem_cons h) (List.ne_of_not_mem_cons (List.not_mem_of_not_mem_cons h))
  all_goals
    simp only [slotsWritten, List.mem_cons, List.not_mem_nil, or_false, not_or] at h
    simp [bodyOf, MemOperand.moved, WordOperand.slots, Pair.hi, Pair.lo, h]

/-- Settles O48: neither the sub-steps nor a taken fault change another slot. -/
theorem slotsChangedOnlyByTheirWriters : Obligations.SlotsChangedOnlyByTheirWriters := by
  unfold Obligations.SlotsChangedOnlyByTheirWriters
  intro i s t q h hq
  rw [← State.slot_advance s (BitVec.ofNat 16 i.length) q]
  exact exec_preserves (g := fun u => u.slot q) h (fun k a u => slot_enterFault k a u q) (bodyOf_slot hq _)

end Sys2Proof.Machine

/-! PROOFS of the statements on 10_state.md. Configuration, events and free values over all instructions. -/

namespace Sys2Proof.Machine

/-! ## Events and free values (20_memory.md R59, 00_scope.md R10) -/

/-- A store at an address that is not delegated sends no event. -/
theorem State.store_ioOut {s : State} {a : Word} (h : s.delegated a = false) (v : Byte) : (s.store a v).ioOut = s.ioOut := by
  simp [State.store, h]

/-- A push to stack bytes that are not delegated sends no event, whether it completes or raises. -/
theorem push_ioOut {s : State} (h : s.delegated (s.sp - 1) = false) (h1 : s.delegated s.sp = false) (v : Word) :
    (push v s).state.ioOut = s.ioOut := by
  have hfirst : (s.store (s.sp - 1) (loByte v)).ioOut = s.ioOut := State.store_ioOut h _
  have hsecond : ((s.store (s.sp - 1) (loByte v)).store s.sp (hiByte v)).ioOut = s.ioOut := by
    rw [State.store_ioOut (by simpa using h1), hfirst]
  cases hw : s.writable (s.sp - 1) with
  | false => rw [push_raise_first hw, Result.state_raise]
  | true =>
    cases hw1 : s.writable s.sp with
    | false => rw [push_raise_second hw hw1, Result.state_raise, hfirst]
    | true => rw [push_ok hw hw1, Result.state_ok, State.setSp_ioOut, hsecond]

theorem callTo_ioOut {s : State} (h : s.delegated (s.sp - 1) = false) (h1 : s.delegated s.sp = false) (t : Word) :
    (callTo t s).state.ioOut = s.ioOut := by
  unfold callTo
  rw [Result.bind_preserves (g := State.ioOut) (fun _ _ => rfl), push_ioOut h h1]

/-- The sub-steps of an instruction send no event when no address it stores to is delegated. -/
theorem bodyOf_ioOut {i : Instr} {s : State} (h : ∀ b ∈ storedAddresses s i, s.delegated b = false) :
    (bodyOf i s).state.ioOut = s.ioOut := by
  cases i
  case ldMemBcA | ldMemDeA | ldMemHlIncA | ldMemHlDecA | ldMemHlA | ldMemHlB | ldMemHlC | ldMemHlD | ldMemHlE | ldMemHlH
      | ldMemHlL | ldhMemA | ldMemCA => exact storeSlot_ioOut _ _ s (h _ (List.mem_singleton.2 rfl))
  case pushBc | pushDe | pushHl | pushAf =>
    exact push_ioOut (h _ (by simp [storedAddresses])) (h _ (by simp [storedAddresses])) _
  case call => exact callTo_ioOut (h _ (by simp [storedAddresses])) (h _ (by simp [storedAddresses])) _
  all_goals simp [bodyOf]

/-- The instructions that rotate: RLA, RL r, and the marker 0xCB before an entry (44_rotate.md R231 to R238). -/
def Rotates (i : Instr) : Prop :=
  i ∈ [Instr.rla, .rlB, .rlC, .rlD, .rlE, .rlH, .rlL, .rlA] ∨ ∃ b, i = .cbPrefix b ∧ hasSecondaryEntry b = true

/-- A rotate takes free values under Draw alone. -/
theorem rotateSlot_draws_or (r : Slot) (s : State) : (rotateSlot r s).state.draws = s.draws ∨ s.config.rlNH = .draw :=
  (Classical.em (s.config.rlNH = .draw)).symm.imp (rotateSlot_draws r) id

/-- The sub-steps of an instruction take no free value when no address it reads data from is delegated, unless it rotates under
Draw. -/
theorem bodyOf_draws {i : Instr} {s : State} (h : ∀ b ∈ readAddresses s i, s.delegated b = false) :
    (bodyOf i s).state.draws = s.draws ∨ (s.config.rlNH = .draw ∧ Rotates i) := by
  cases i
  case rla | rlA | rlB | rlC | rlD | rlE | rlH | rlL =>
    exact (rotateSlot_draws_or _ s).imp_right fun hd => ⟨hd, .inl (by decide)⟩
  case cbPrefix b =>
    rcases rotateRegister_cases b with hb | ⟨r, hb, -, he⟩
    · exact .inl (by simp [bodyOf, escapeTo, hb])
    · have hbody : bodyOf (.cbPrefix b) s = rotateSlot r s := by simp [bodyOf, escapeTo, hb]
      rw [hbody]
      exact (rotateSlot_draws_or r s).imp_right fun hd => ⟨hd, .inr ⟨b, rfl, he⟩⟩
  all_goals left
  case ldAMemBc | ldAMemDe | ldAMemHlInc | ldAMemHlDec | ldAMemHl | ldBMemHl | ldCMemHl | ldDMemHl | ldEMemHl | ldHMemHl
      | ldLMemHl | ldhAMem | ldAMemC => exact loadSlot_draws _ (h _ (List.mem_singleton.2 rfl))
  case subMemHl => exact subFromA_draws fun _ => h _ (List.mem_singleton.2 rfl)
  case xorMemHl => exact xorIntoA_draws fun _ => h _ (List.mem_singleton.2 rfl)
  case cpMemHl => exact compareA_draws fun _ => h _ (List.mem_singleton.2 rfl)
  case subA | subB | subC | subD | subE | subH | subL | subD8 => exact subFromA_draws nofun
  case xorA | xorB | xorC | xorD | xorE | xorH | xorL | xorD8 => exact xorIntoA_draws nofun
  case cpA | cpB | cpC | cpD | cpE | cpH | cpL | cpD8 => exact compareA_draws nofun
  case popAf | popBc | popDe | popHl =>
    exact popPair_draws _ (h _ (by simp [readAddresses])) (h _ (by simp [readAddresses]))
  case ret => exact returnToCaller_draws (h _ (by simp [readAddresses])) (h _ (by simp [readAddresses]))
  all_goals simp [bodyOf]

theorem storedAddresses_advance (s : State) (n : Word) (i : Instr) : storedAddresses (s.advance n) i = storedAddresses s i := by
  cases i <;> rfl

theorem readAddresses_advance (s : State) (n : Word) (i : Instr) : readAddresses (s.advance n) i = readAddresses s i := by
  cases i <;> rfl

/-- Settles O51: with plain storage no address is delegated, so both premises on the draws are one. -/
theorem configurationNeverChanges : Obligations.ConfigurationNeverChanges := by
  unfold Obligations.ConfigurationNeverChanges
  intro i s t h
  refine ⟨exec_preserves (g := State.config) h (fun _ _ _ => rfl) (bodyOf_config i _), fun hd => ?_, fun hd => ?_⟩
  · refine exec_preserves (g := State.ioOut) h (fun _ _ _ => rfl) (bodyOf_ioOut ?_)
    simpa [storedAddresses_advance] using hd
  · have hread : ∀ b ∈ readAddresses s i, s.delegated b = false := hd.elim (fun hio b _ => delegated_storage hio b) id
    rw [← readAddresses_advance s (BitVec.ofNat 16 i.length)] at hread
    refine (bodyOf_draws (s := s.advance _) (by simpa using hread)).imp_left fun hb => ?_
    exact exec_preserves (g := State.draws) h (fun _ _ _ => rfl) hb

end Sys2Proof.Machine

/-! PROOFS of the statements on 10_state.md. Noninterference of the flags N and H. -/

namespace Sys2Proof.Machine

/-! ## Only PUSH AF reads N and H (10_state.md R28) -/

/-- Two states that differ in F alone, and there not in Z and C. -/
def SameButNH (s u : State) : Prop :=
  (∃ f, u = { s with regs := { s.regs with f := f } }) ∧ u.flag .z = s.flag .z ∧ u.flag .c = s.flag .c

/-- States that differ in F alone do so after a write of the same slot: of the same value, or of any two where the slot is F. -/
theorem State.setSlot_differing_f (s : State) (f : Byte) (r : Slot) (v w : Byte) (h : r ≠ .f → w = v) :
    ∃ g, ({ s with regs := { s.regs with f := f } } : State).setSlot r w =
      { s.setSlot r v with regs := { (s.setSlot r v).regs with f := g } } := by
  cases r
  case f => exact ⟨w &&& 0xF0, rfl⟩
  all_goals rw [h (by decide)]; exact ⟨f, rfl⟩

/-- A flag that two states share they share after the same slot write. -/
theorem State.flag_setSlot_congr {s u : State} {g : Flag} (h : u.flag g = s.flag g) (r : Slot) (v : Byte) :
    (u.setSlot r v).flag g = (s.setSlot r v).flag g := by
  by_cases hr : r = .f
  · subst hr
    rw [State.flag, State.flag, State.slot_setSlot_self, State.slot_setSlot_self]
  · rw [State.flag_setSlot_ne u hr, State.flag_setSlot_ne s hr, h]

theorem SameButNH.setSlot {s u : State} (h : SameButNH s u) (r : Slot) (v : Byte) :
    SameButNH (s.setSlot r v) (u.setSlot r v) := by
  obtain ⟨⟨f, rfl⟩, hz, hc⟩ := h
  exact ⟨State.setSlot_differing_f s f r v v fun _ => rfl, State.flag_setSlot_congr hz r v, State.flag_setSlot_congr hc r v⟩

theorem SameButNH.setFlag {s u : State} (h : SameButNH s u) (g : Flag) (on : Bool) :
    SameButNH (s.setFlag g on) (u.setFlag g on) := by
  obtain ⟨⟨f, rfl⟩, hz, hc⟩ := h
  refine ⟨State.setSlot_differing_f s f .f _ _ fun hf => absurd rfl hf, ?_, ?_⟩
  · rw [State.flag_setFlag, State.flag_setFlag, hz]
  · rw [State.flag_setFlag, State.flag_setFlag, hc]

/-- A read does not look at the registers. -/
theorem State.afterRead_setRegs (s : State) (r : Regs) (a : Word) :
    ({ s with regs := r } : State).afterRead a = { s.afterRead a with regs := r } := by
  have hd : ({ s with regs := r } : State).delegated a = s.delegated a := rfl
  unfold State.afterRead
  rw [hd]
  split <;> rfl

/-- A store does not look at the registers. -/
theorem State.store_setRegs (s : State) (r : Regs) (a : Word) (v : Byte) :
    ({ s with regs := r } : State).store a v = { s.store a v with regs := r } := by
  have hd : ({ s with regs := r } : State).delegated a = s.delegated a := rfl
  unfold State.store
  rw [hd]
  split <;> rfl

/-- Every update keeps two states equal but for N and H. -/
theorem simulation_sameButNH : Simulation SameButNH where
  slot := by
    rintro s _ ⟨⟨f, rfl⟩, -⟩ q hq
    cases q
    case f => exact absurd rfl hq
    all_goals rfl
  flag_z h := h.2.1
  flag_c h := h.2.2
  sp := by rintro s _ ⟨⟨f, rfl⟩, -⟩; rfl
  pc := by rintro s _ ⟨⟨f, rfl⟩, -⟩; rfl
  config := by rintro s _ ⟨⟨f, rfl⟩, -⟩; rfl
  readValue := by rintro s _ ⟨⟨f, rfl⟩, -⟩ a; rfl
  setSlot h := h.setSlot
  setFlag h := h.setFlag
  drawFlag := by
    intro s u h g
    have hd : u.draws = s.draws := by obtain ⟨⟨f, rfl⟩, -⟩ := h; rfl
    obtain ⟨⟨f, hf⟩, hz, hc⟩ := h.setFlag g (Config.freeFlag s.draws)
    rw [State.drawFlag, State.drawFlag, hd]
    exact ⟨⟨f, by rw [hf]⟩, hz, hc⟩
  setSp := by rintro s _ ⟨⟨f, rfl⟩, hz, hc⟩ v; exact ⟨⟨f, rfl⟩, hz, hc⟩
  setPc := by rintro s _ ⟨⟨f, rfl⟩, hz, hc⟩ v; exact ⟨⟨f, rfl⟩, hz, hc⟩
  afterRead := by
    rintro s _ ⟨⟨f, rfl⟩, hz, hc⟩ a
    refine ⟨⟨f, ?_⟩, by simpa using hz, by simpa using hc⟩
    rw [State.afterRead_setRegs, State.afterRead_regs]
  store := by
    rintro s _ ⟨⟨f, rfl⟩, hz, hc⟩ a - v
    refine ⟨⟨f, ?_⟩, by simpa using hz, by simpa using hc⟩
    rw [State.store_setRegs, State.store_regs]
  enterFault := by rintro s _ ⟨⟨f, rfl⟩, hz, hc⟩ k a; exact ⟨⟨f, rfl⟩, hz, hc⟩

/-- Settles O56: the relation holds of the two states, and every instruction but PUSH AF keeps it. -/
theorem subtractAndHalfCarryReadOnlyByPush : Obligations.SubtractAndHalfCarryReadOnlyByPush := by
  unfold Obligations.SubtractAndHalfCarryReadOnlyByPush
  intro i s u hi hu hz hc
  obtain ⟨t, w, ht, hw, ⟨f, rfl⟩, htz, htc⟩ :=
    simulation_sameButNH.exec_rel ⟨⟨_, hu⟩, hz, hc⟩ (i := i) fun h => absurd h hi
  exact ⟨t, _, ht, hw, rfl, htz, htc⟩

end Sys2Proof.Machine

/-! PROOFS of the statements on 10_state.md. Register pairs, flags and construction. -/

namespace Sys2Proof.Machine

/-! ## Registers and flags (10_state.md R22 to R27) -/

/-- A pair reads as its high slot and its low slot, high byte first. -/
theorem State.pair_toNat (s : State) (p : Pair) :
    (s.pair p).toNat = (s.slot p.hi).toNat * 256 + (s.slot p.lo).toNat := cat_toNat _ _

theorem State.slot_setPair_hi (s : State) (p : Pair) (v : Word) : (s.setPair p v).slot p.hi = hiByte v := by
  rw [State.slot_setPair, if_pos rfl]

theorem State.slot_setPair_lo (s : State) (p : Pair) (v : Word) :
    (s.setPair p v).slot p.lo = if p = .af then loByte v &&& 0xF0 else loByte v := by
  rw [State.slot_setPair, if_neg (by cases p <;> decide), if_pos rfl]

/-- A pair write changes the register file alone. -/
theorem State.setPair_eq (s : State) (p : Pair) (v : Word) : s.setPair p v = { s with regs := (s.setPair p v).regs } := by
  cases p <;> rfl

/-- Clearing bits 3..0 of a word clears those of its low byte. -/
theorem loByte_and_low (v : Word) : loByte (v &&& 0xFFF0) = loByte v &&& 0xF0 := by
  simp [loByte, BitVec.extractLsb'_and]

/-- Clearing bits 3..0 of a word leaves its high byte. -/
theorem hiByte_and_low (v : Word) : hiByte (v &&& 0xFFF0) = hiByte v := by
  have hmask : BitVec.extractLsb' 8 8 (0xFFF0 : Word) = BitVec.allOnes 8 := rfl
  rw [hiByte, hiByte, BitVec.extractLsb'_and, hmask, BitVec.and_allOnes]

/-- A pair reads back the word written to it, AF without bits 3..0 (R24). -/
theorem State.pair_setPair (s : State) (p : Pair) (v : Word) :
    (s.setPair p v).pair p = if p = .af then v &&& 0xFFF0 else v := by
  rw [State.pair, State.slot_setPair_hi, State.slot_setPair_lo]
  split
  · rw [← hiByte_and_low, ← loByte_and_low, cat_hiByte_loByte]
  · rw [cat_hiByte_loByte]

/-- The low slot of a pair holds the low byte of the word written, F without bits 3..0. -/
theorem State.slot_setPair_lo_toNat (s : State) (p : Pair) (v : Word) :
    ((s.setPair p v).slot p.lo).toNat = (if p = .af then v &&& 0xFFF0 else v).toNat % 256 := by
  rw [State.slot_setPair_lo, ← loByte_toNat]
  split
  · rw [loByte_and_low]
  · rfl

/-- R22, R23 for one pair. -/
theorem registerPair (s : State) (v : Word) (p : Pair) :
    (s.pair p).toNat = (s.slot p.hi).toNat * 256 + (s.slot p.lo).toNat ∧
    ((s.setPair p v).slot p.hi).toNat = v.toNat / 256 ∧
    ((s.setPair p v).slot p.lo).toNat = (if p = .af then v &&& 0xFFF0 else v).toNat % 256 ∧
    (∀ q, q ≠ p.hi → q ≠ p.lo → (s.setPair p v).slot q = s.slot q) ∧
    s.setPair p v = { s with regs := (s.setPair p v).regs } :=
  ⟨s.pair_toNat p, by rw [State.slot_setPair_hi, hiByte_toNat], s.slot_setPair_lo_toNat p v,
    fun _ => s.slot_setPair_ne p v, s.setPair_eq p v⟩

/-- Settles O19: each listed pair comes with its high and low slot. -/
theorem registerPairs : Obligations.RegisterPairs := by
  unfold Obligations.RegisterPairs
  intro x hx s v
  simp only [List.mem_cons, List.not_mem_nil, or_false] at hx
  rcases hx with rfl | rfl | rfl | rfl
  · exact registerPair s v .af
  · exact registerPair s v .bc
  · exact registerPair s v .de
  · exact registerPair s v .hl

/-- Settles O20: the slots hold the word's bytes, and the pair puts them together again. -/
theorem registerPairRoundTrip : Obligations.RegisterPairRoundTrip := by
  unfold Obligations.RegisterPairRoundTrip
  intro s v p
  have hlo : loByte v = BitVec.ofNat 8 v.toNat := BitVec.eq_of_toNat_eq (by rw [loByte_toNat, BitVec.toNat_ofNat])
  refine ⟨s.pair_setPair p v, ?_, ?_⟩
  · rw [State.slot_setPair_hi, hiByte_eq_ofNat]
  · rw [State.slot_setPair_lo, hlo]

/-- F reads without bits 3..0 in every state (R26). -/
theorem State.slot_f_low (s : State) : s.slot .f &&& 0x0F = 0 := by
  simp [State.slot, BitVec.and_assoc]

/-- Settles O21: a flag write is a write of F with one bit changed, and F is masked where it is read and written. -/
theorem flagAccess : Obligations.FlagAccess := by
  unfold Obligations.FlagAccess
  intro s f on
  refine ⟨⟨rfl, rfl, rfl, rfl⟩, fun g => s.flag_setFlag f g on, fun q => s.slot_setFlag_ne f on, s.setSlot_eq .f _,
    s.slot_f_low, fun v => ?_⟩
  rw [State.slot_setSlot_self, if_pos rfl]

/-! ## Construction (70_reset_and_hazards.md R330 to R333) -/

/-- Settles O53: no byte is listed, F is zero, and there is no event. -/
theorem resetSatisfiesInvariant : Obligations.ResetSatisfiesInvariant :=
  ⟨State.reset_mem_wf, nofun, by decide, nofun, fun _ => rfl⟩

/-- A core is constructed exactly when the image has its region's size. -/
theorem State.construct_isSome (p : Construction) :
    (State.construct p).isSome = true ↔ p.image.length = (imageRegion p.config.mapMode).size := by
  by_cases h : p.image.length = (imageRegion p.config.mapMode).size <;> simp [State.construct, h]

/-- The state constructed: what the parameters supply, and the rest as after reset. -/
def Construction.initialState (p : Construction) : State where
  regs := State.reset.regs
  sp := p.entrySp
  pc := p.entryPc
  status := .running
  config := p.config
  mem := p.memory
  draws := 0
  ioOut := []

theorem State.construct_of_size {p : Construction} (h : p.image.length = (imageRegion p.config.mapMode).size) :
    State.construct p = some p.initialState := if_pos h

theorem Construction.initialState_mem (p : Construction) : p.initialState.mem = p.memory := by
  rw [Construction.initialState]

theorem State.slot_reset (q : Slot) : State.reset.slot q = 0 := by cases q <;> decide

theorem State.flag_reset (f : Flag) : State.reset.flag f = false := by cases f <;> decide

theorem imageRegion_base (m : MapMode) : (imageRegion m).base = 0 := by cases m <;> rfl

/-- The initial byte of a mapped address, by its region's storage. -/
theorem Construction.initialByte_of_route {p : Construction} {a : Word} {r : Region} (h : route p.config.mapMode a = some r) :
    (r.storage = .readOnlyImage → p.initialByte a.toNat = p.image.getD (a.toNat - r.base) Memory.unlisted) ∧
    (r.storage = .readWriteMemory → p.initialByte a.toNat = p.initRam a) ∧
    (r.storage = .ioDelegation → p.initialByte a.toNat = p.initIo (a.toNat - r.base)) := by
  have ha : BitVec.ofNat 16 a.toNat = a := by rw [BitVec.ofNat_toNat, BitVec.setWidth_eq]
  refine ⟨fun hs => ?_, fun hs => ?_, fun hs => ?_⟩ <;> simp [Construction.initialByte, ha, h, hs]

/-- The read-only storage of an address is the image's region, which begins at 0. -/
theorem route_readOnlyImage {m : MapMode} {a : Word} {r : Region} (h : route m a = some r) (hs : r.storage = .readOnlyImage) :
    r = imageRegion m := by
  have hm := (route_mem h).1
  simp only [regionTable, List.mem_cons, List.not_mem_nil, or_false] at hm
  rcases hm with rfl | rfl | rfl | rfl | rfl
  · rfl
  all_goals cases hs

/-- The I/O delegation of an address begins at 0xFF00. -/
theorem route_ioDelegation_base {m : MapMode} {a : Word} {r : Region} (h : route m a = some r)
    (hs : r.storage = .ioDelegation) : r.base = 0xFF00 := by
  have hm := (route_mem h).1
  simp only [regionTable, List.mem_cons, List.not_mem_nil, or_false] at hm
  rcases hm with rfl | rfl | rfl | rfl | rfl
  case inr.inr.inr.inl => rfl
  case inl => cases m <;> cases hs
  all_goals cases hs

/-- An image byte of a map whose image has its region's size. -/
theorem Construction.image_getElem? {p : Construction} (hsize : p.image.length = (imageRegion p.config.mapMode).size)
    {a : Word} {r : Region} (h : route p.config.mapMode a = some r) (hs : r.storage = .readOnlyImage) :
    p.image[a.toNat]? = some (p.initialByte a.toNat) := by
  cases route_readOnlyImage h hs
  have hcovers := (route_mem h).2
  simp only [Region.covers, imageRegion_base, Nat.zero_add, Bool.and_eq_true, decide_eq_true_eq] at hcovers
  rw [(Construction.initialByte_of_route h).1 hs, imageRegion_base, Nat.sub_zero, List.getD_eq_getElem?_getD,
    List.getElem?_eq_getElem (hsize ▸ hcovers.2), Option.getD_some]

/-- A construction lists mapped addresses only. -/
theorem Construction.isSome_route_of_mem {p : Construction} {c : Host.Cell} (h : c ∈ p.memory) :
    (route p.config.mapMode (BitVec.ofNat 16 c.1)).isSome = true := by
  have hc := Construction.cell_of_mem h
  cases hr : route p.config.mapMode (BitVec.ofNat 16 c.1) with
  | some r => rfl
  | none => simp [Construction.cell, Construction.initialByte, hr] at hc

/-- The invariant holds right after construction. -/
theorem Construction.initialState_inv (p : Construction) : p.initialState.Inv := by
  obtain ⟨-, -, hf, -, -⟩ := resetSatisfiesInvariant
  unfold State.Inv
  rw [p.initialState_mem]
  exact ⟨p.memory_wf, fun _ => Construction.isSome_route_of_mem, hf, nofun, fun _ => rfl⟩

/-- Settles O57: the parameters supply SP, PC, the configuration and the bytes; the rest is as after reset. -/
theorem constructedState : Obligations.ConstructedState := by
  unfold Obligations.ConstructedState
  intro p
  refine ⟨?_, fun s h => ?_⟩
  · rw [State.construct_isSome]
    cases p.config.mapMode <;> exact Iff.rfl
  have hsize : p.image.length = (imageRegion p.config.mapMode).size := (State.construct_isSome p).1 (by rw [h]; rfl)
  cases (State.construct_of_size hsize).symm.trans h
  refine ⟨State.slot_reset, State.flag_reset, rfl, rfl, rfl, rfl, p.initialState_inv, fun a r hr => ?_⟩
  obtain ⟨-, hram, hio⟩ := Construction.initialByte_of_route hr
  rw [State.peek, p.initialState_mem, Construction.get_memory p a.toNat a.isLt]
  refine ⟨Construction.image_getElem? hsize hr, hram, fun hs => ?_⟩
  rw [hio hs, route_ioDelegation_base hr hs]

/-- A construction whose initial bytes are all what an unlisted address reads as lists none. -/
theorem Construction.memory_eq_nil {p : Construction} (h : ∀ a, p.initialByte a = Memory.unlisted) : p.memory = [] := by
  unfold Construction.memory
  rw [List.filterMap_eq_nil_iff]
  intro a _
  rw [Construction.cell, if_pos (h a)]

/-- Zeros in the image and in the initial bytes read as what nothing has written. -/
theorem Construction.initialByte_of_zero {p : Construction} {n : Nat} (himage : p.image = List.replicate n 0)
    (hram : ∀ a, p.initRam a = 0) (hio : ∀ k, p.initIo k = 0) (a : Nat) : p.initialByte a = Memory.unlisted := by
  unfold Construction.initialByte
  split
  · rfl
  · split
    · rw [himage, List.getD_eq_getElem?_getD]
      exact List.getElem?_getD_replicate_default_eq ..
    · exact hram _
    · exact hio _

/-- Settles O58: the image and the initial bytes are zeros, so no byte is listed. -/
theorem resetIsAConstruction : Obligations.ResetIsAConstruction := by
  unfold Obligations.ResetIsAConstruction
  rw [State.construct_of_size (List.length_replicate ..), Construction.initialState,
    Construction.memory_eq_nil (Construction.initialByte_of_zero rfl (fun _ => rfl) fun _ => rfl)]
  rfl

end Sys2Proof.Machine

/-! PROOFS of the statements on 20_memory.md. Which bytes an instruction and a step change. -/

namespace Sys2Proof.Machine

/-! ## Bytes that are not writable (20_memory.md R54, R57) -/

/-- A predicate of the configuration and the memory that stores at writable addresses keep is a simulation of a state beside
itself: every other update leaves the configuration and the memory. -/
theorem simulation_beside {P : State → Prop} (hframe : ∀ {s t : State}, P s → t.config = s.config → t.mem = s.mem → P t)
    (hstore : ∀ {s : State}, P s → ∀ {a}, s.writable a = true → ∀ v, P (s.store a v)) :
    Simulation fun s u => u = s ∧ P s where
  slot := by rintro s _ ⟨rfl, -⟩ q -; rfl
  flag_z := by rintro s _ ⟨rfl, -⟩; rfl
  flag_c := by rintro s _ ⟨rfl, -⟩; rfl
  sp := by rintro s _ ⟨rfl, -⟩; rfl
  pc := by rintro s _ ⟨rfl, -⟩; rfl
  config := by rintro s _ ⟨rfl, -⟩; rfl
  readValue := by rintro s _ ⟨rfl, -⟩ a; rfl
  setSlot := by rintro s _ ⟨rfl, h⟩ q v; exact ⟨rfl, hframe h (State.setSlot_config _ q v) (State.setSlot_mem _ q v)⟩
  setFlag := by rintro s _ ⟨rfl, h⟩ f on; exact ⟨rfl, hframe h (State.setFlag_config _ f on) (State.setFlag_mem _ f on)⟩
  drawFlag := by rintro s _ ⟨rfl, h⟩ f; exact ⟨rfl, hframe h (State.drawFlag_config _ f) (State.drawFlag_mem _ f)⟩
  setSp := by rintro s _ ⟨rfl, h⟩ v; exact ⟨rfl, hframe h rfl rfl⟩
  setPc := by rintro s _ ⟨rfl, h⟩ v; exact ⟨rfl, hframe h rfl rfl⟩
  afterRead := by rintro s _ ⟨rfl, h⟩ a; exact ⟨rfl, hframe h (State.afterRead_config _ a) (State.afterRead_mem _ a)⟩
  store := by rintro s _ ⟨rfl, h⟩ a ha v; exact ⟨rfl, hstore h ha v⟩
  enterFault := by rintro s _ ⟨rfl, h⟩ k a; exact ⟨rfl, hframe h rfl rfl⟩

/-- A store leaves the bytes of all other addresses. -/
theorem State.peek_store_ne (s : State) {a b : Word} (h : b ≠ a) (v : Byte) : (s.store a v).peek b = s.peek b := by
  rw [State.peek_store, if_neg fun e => h e.2]

/-- The state `u` has the map of `s`, and its byte at `a` where that is not writable. -/
def KeepsUnwritable (s : State) (a : Word) (u : State) : Prop :=
  u.config = s.config ∧ (s.writable a = false → u.peek a = s.peek a)

/-- Only the configuration and the memory matter. -/
theorem KeepsUnwritable.of_eq {s u t : State} {a : Word} (h : KeepsUnwritable s a u) (hc : t.config = u.config)
    (hm : t.mem = u.mem) : KeepsUnwritable s a t :=
  ⟨hc.trans h.1, fun ha => (State.peek_congr hm a).trans (h.2 ha)⟩

/-- A store at a writable address is at none that is not writable. -/
theorem KeepsUnwritable.store {s u : State} {a b : Word} (h : KeepsUnwritable s a u) (hb : u.writable b = true) (v : Byte) :
    KeepsUnwritable s a (u.store b v) := by
  refine ⟨(u.store_config b v).trans h.1, fun ha => ?_⟩
  have hne : a ≠ b := by
    rintro rfl
    rw [State.writable_congr h.1, ha] at hb
    cases hb
  rw [u.peek_store_ne hne, h.2 ha]

/-- Every instruction keeps the map and the bytes that are not writable. -/
theorem exec_keepsUnwritable {i : Instr} {s u t : State} {a : Word} (hu : KeepsUnwritable s a u) (h : exec i u = .next t) :
    KeepsUnwritable s a t := by
  obtain ⟨t', -, ht, -, -, hkeeps⟩ :=
    (simulation_beside KeepsUnwritable.of_eq fun h _ => h.store).exec_rel ⟨rfl, hu⟩ (i := i) fun _ => rfl
  cases ht.symm.trans h
  exact hkeeps

/-- Settles O55: a fetch and a taken fault leave the configuration and the memory, and an instruction stores at writable
addresses alone. -/
theorem onlyWritableBytesChange : Obligations.OnlyWritableBytesChange := by
  unfold Obligations.OnlyWritableBytesChange
  intro s t a h
  have hfetch : KeepsUnwritable s a (fetch s).state :=
    ⟨fetch_preserves State.afterRead_config State.advance_config s, fun _ =>
      State.peek_congr (fetch_preserves State.afterRead_mem State.advance_mem s) a⟩
  rcases step_cases (step_running h) with ⟨k, hk⟩ | ⟨i, hx⟩
  · cases hk.symm.trans h
    exact hfetch
  · exact exec_keepsUnwritable (u := (fetch s).state.setPc s.pc) hfetch (hx.symm.trans h)

/-! ## Bytes an instruction stores to (20_memory.md R57, R63, R67) -/

/-- The sub-steps of an instruction leave the bytes at all addresses it does not store to. -/
theorem bodyOf_peek {i : Instr} {s : State} {b : Word} (h : b ∉ storedAddresses s i) :
    (bodyOf i s).state.peek b = s.peek b := by
  cases i
  case ldMemBcA | ldMemDeA | ldMemHlIncA | ldMemHlDecA | ldMemHlA | ldMemHlB | ldMemHlC | ldMemHlD | ldMemHlE | ldMemHlH
      | ldMemHlL | ldhMemA | ldMemCA => exact storeSlot_peek _ _ s b (List.ne_of_not_mem_cons h)
  case pushBc | pushDe | pushHl | pushAf =>
    exact pushPair_peek _ s b (List.ne_of_not_mem_cons h) (List.ne_of_not_mem_cons (List.not_mem_of_not_mem_cons h))
  case call =>
    exact callTo_peek _ s b (List.ne_of_not_mem_cons h) (List.ne_of_not_mem_cons (List.not_mem_of_not_mem_cons h))
  all_goals simp [bodyOf]

/-- Settles O50: moving PC past the instruction's bytes changes neither the memory nor the addresses, and a taken fault leaves
the memory. -/
theorem memoryChangedOnlyWhereStored : Obligations.MemoryChangedOnlyWhereStored := by
  unfold Obligations.MemoryChangedOnlyWhereStored
  intro i s t b h hb
  rw [← storedAddresses_advance s (BitVec.ofNat 16 i.length)] at hb
  exact exec_preserves (g := fun u => u.peek b) h (fun _ _ _ => rfl) (bodyOf_peek hb)

end Sys2Proof.Machine

/-! PROOFS of the statements on 20_memory.md. The region tables and the router. -/

namespace Sys2Proof.Machine

/-! ## The region tables (20_memory.md R51 to R55) -/

theorem Region.covers_iff {r : Region} {a : Word} :
    r.covers a = true ↔ r.base ≤ a.toNat ∧ a.toNat < r.base + r.size := by
  simp [Region.covers]

/-- The ranges of two regions of a table do not overlap: one ends before the other begins. -/
theorem regionTable_disjoint (m : MapMode) : ∀ r ∈ regionTable m, ∀ q ∈ regionTable m,
    r = q ∨ r.base + r.size ≤ q.base ∨ q.base + q.size ≤ r.base := by
  cases m <;> decide

/-- No region of a table is empty. -/
theorem regionTable_size_pos (m : MapMode) : ∀ r ∈ regionTable m, 0 < r.size := by
  cases m <;> decide

/-- Two regions of a table that cover one address are one region. -/
theorem region_unique {m : MapMode} {a : Word} {r q : Region} (hr : r ∈ regionTable m) (hq : q ∈ regionTable m)
    (hra : r.covers a = true) (hqa : q.covers a = true) : r = q := by
  refine (regionTable_disjoint m r hr q hq).resolve_right fun hsep => ?_
  rw [Region.covers_iff] at hra hqa
  omega

/-- An address routes to a region exactly when that region covers it (R52). -/
theorem route_eq_some_iff {m : MapMode} {a : Word} {r : Region} :
    route m a = some r ↔ r ∈ regionTable m ∧ r.covers a = true := by
  refine ⟨route_mem, fun ⟨hr, hra⟩ => ?_⟩
  have hsome : (route m a).isSome = true := List.find?_isSome.2 ⟨r, hr, hra⟩
  obtain ⟨q, hq⟩ := Option.isSome_iff_exists.1 hsome
  rw [hq, region_unique (route_mem hq).1 hr (route_mem hq).2 hra]

/-- The same with the range's first and last address (R51). -/
theorem route_eq_some_iff_range {m : MapMode} {a : Word} {r : Region} :
    route m a = some r ↔ r ∈ regionTable m ∧ r.base ≤ a.toNat ∧ a.toNat ≤ r.base + r.size - 1 := by
  rw [route_eq_some_iff, Region.covers_iff]
  refine and_congr_right fun hr => and_congr_right fun _ => ?_
  have hsize := regionTable_size_pos m r hr
  omega

/-- An address routes nowhere exactly when no region covers it (R52). -/
theorem route_eq_none_iff {m : MapMode} {a : Word} :
    route m a = none ↔ ∀ r ∈ regionTable m, r.covers a = false := by
  simp [route]

/-- The regions of a table, the image region of the mode first. -/
theorem mem_regionTable {m : MapMode} {r : Region} : r ∈ regionTable m ↔ r = imageRegion m ∨
    r = { name := .video, base := 0x8000, size := 8192, storage := .readWriteMemory, writable := true } ∨
    r = { name := .work, base := 0xC000, size := 8192, storage := .readWriteMemory, writable := true } ∨
    r = { name := .io, base := 0xFF00, size := 76, storage := .ioDelegation, writable := true } ∨
    r = { name := .high, base := 0xFF80, size := 127, storage := .readWriteMemory, writable := true } := by
  simp [regionTable]

/-- The first 255 addresses are image bytes in either map (R53). -/
theorem route_image (m : MapMode) {a : Word} (h : a.toNat ≤ 0x00FE) : route m a = some (imageRegion m) := by
  refine route_eq_some_iff_range.2 ⟨mem_regionTable.2 (.inl rfl), ?_⟩
  cases m
  · exact ⟨Nat.zero_le _, h⟩
  · exact ⟨Nat.zero_le _, h.trans (by decide)⟩

/-- The addresses no region covers (R55). -/
theorem route_eq_none_ranges (m : MapMode) (a : Word) : route m a = none ↔
    (m = .bootMap ∧ 0x00FF ≤ a.toNat ∧ a.toNat ≤ 0x7FFF) ∨ (m = .cartridgeMap ∧ 0x4000 ≤ a.toNat ∧ a.toNat ≤ 0x7FFF) ∨
    (0xA000 ≤ a.toNat ∧ a.toNat ≤ 0xBFFF) ∨ (0xE000 ≤ a.toNat ∧ a.toNat ≤ 0xFEFF) ∨
    (0xFF4C ≤ a.toNat ∧ a.toNat ≤ 0xFF7F) ∨ a.toNat = 0xFFFF := by
  have ha := a.isLt
  rw [route_eq_none_iff]
  cases m <;> simp [regionTable, imageRegion, Region.covers] <;> omega

/-- Settles O9: where a range of R53 holds the address its region covers it, and outside them all no region does. -/
theorem routerFollowsRegionTable : Obligations.RouterFollowsRegionTable := by
  unfold Obligations.RouterFollowsRegionTable
  refine ⟨fun m a => ?_, route_eq_none_ranges⟩
  have ha := a.isLt
  split_ifs with hboot hcart hvideo hwork hio hhigh
  · obtain ⟨rfl, h⟩ := hboot
    exact route_eq_some_iff_range.2 ⟨mem_regionTable.2 (.inl rfl), Nat.zero_le _, h⟩
  · obtain ⟨rfl, h⟩ := hcart
    exact route_eq_some_iff_range.2 ⟨mem_regionTable.2 (.inl rfl), Nat.zero_le _, h⟩
  · exact route_eq_some_iff_range.2 ⟨mem_regionTable.2 (.inr (.inl rfl)), hvideo⟩
  · exact route_eq_some_iff_range.2 ⟨mem_regionTable.2 (.inr (.inr (.inl rfl))), hwork⟩
  · exact route_eq_some_iff_range.2 ⟨mem_regionTable.2 (.inr (.inr (.inr (.inl rfl)))), hio⟩
  · exact route_eq_some_iff_range.2 ⟨mem_regionTable.2 (.inr (.inr (.inr (.inr rfl)))), hhigh⟩
  · rw [route_eq_none_ranges]
    cases m <;> simp only [reduceCtorEq, true_and, false_and, false_or, not_false_eq_true] at hboot hcart ⊢ <;> omega

/-! ## What the route of an address says of it (20_memory.md R52, R57) -/

theorem State.mapped_of_route_none {s : State} {a : Word} (h : route s.config.mapMode a = none) : s.mapped a = false := by
  rw [State.mapped, h, Option.isSome_none]

theorem State.mapped_of_route_some {s : State} {a : Word} {r : Region} (h : route s.config.mapMode a = some r) :
    s.mapped a = true := by
  rw [State.mapped, h, Option.isSome_some]

theorem State.writable_of_route_some {s : State} {a : Word} {r : Region} (h : route s.config.mapMode a = some r) :
    s.writable a = r.writable := by
  rw [State.writable, h, Option.any_some]

/-- An address that is not mapped is not writable. -/
theorem State.writable_of_not_mapped {s : State} {a : Word} (h : s.mapped a = false) : s.writable a = false := by
  cases hw : s.writable a with
  | false => rfl
  | true => rw [mapped_of_writable hw] at h; cases h

theorem State.writeFault_of_not_mapped {s : State} {a : Word} (h : s.mapped a = false) :
    s.writeFault a = .unmappedAddress a := by
  simp [State.writeFault, h]

theorem State.writeFault_of_mapped {s : State} {a : Word} (h : s.mapped a = true) :
    s.writeFault a = .readOnlyViolation a := by
  simp [State.writeFault, h]

/-- A byte write to an address that is not mapped raises UnmappedAddress (R57). -/
theorem writeByte_unmapped {s : State} {a : Word} (h : s.mapped a = false) (v : Byte) :
    writeByte a v s = .raise (.unmappedAddress a) s := by
  rw [writeByte_raise (State.writable_of_not_mapped h), State.writeFault_of_not_mapped h]

/-- A byte write to a mapped address that is not writable raises ReadOnlyViolation (R57). -/
theorem writeByte_readOnly {s : State} {a : Word} (h : s.mapped a = true) (hw : s.writable a = false) (v : Byte) :
    writeByte a v s = .raise (.readOnlyViolation a) s := by
  rw [writeByte_raise hw, State.writeFault_of_mapped h]

/-- Settles O10: the ranges of a table do not overlap, so the first region that covers an address is the only one. -/
theorem regionsNeverOverlap : Obligations.RegionsNeverOverlap := by
  unfold Obligations.RegionsNeverOverlap
  intro m a
  refine ⟨fun r => route_eq_some_iff_range, fun r hr q hq => region_unique hr hq, route_eq_none_iff, fun s v hm h => ?_⟩
  have hmapped : s.mapped a = false := State.mapped_of_route_none (hm ▸ h)
  exact ⟨readByte_raise hmapped, writeByte_unmapped hmapped v⟩

/-- Settles O11: the boundaries are finitely many addresses, and 0x0000 is an image byte. -/
theorem regionBoundaries : Obligations.RegionBoundaries := by
  unfold Obligations.RegionBoundaries
  refine ⟨by decide, fun s v => ?_⟩
  have hr : route s.config.mapMode 0 = some (imageRegion s.config.mapMode) := route_image _ (by decide)
  exact writeByte_readOnly (mapped_zero s) ((State.writable_of_route_some hr).trans (imageRegion_writable _)) v

end Sys2Proof.Machine

/-! PROOFS of the statements on 20_memory.md. Byte and word accesses, delegation and the stores that fault. -/

namespace Sys2Proof.Machine

/-! ## Byte accesses (20_memory.md R56 to R59) -/

/-- Where no arbitrary collaborator answers, a store changes the memory alone. -/
theorem State.store_of_not_delegated {s : State} {a : Word} (h : s.delegated a = false) (v : Byte) :
    s.store a v = { s with mem := s.mem.set a.toNat v } := by
  simp [State.store, h]

/-- Where no arbitrary collaborator answers, a store holds the byte stored. -/
theorem State.peek_store_self {s : State} {a : Word} (h : s.delegated a = false) (v : Byte) : (s.store a v).peek a = v := by
  rw [State.peek_store, if_pos ⟨h, rfl⟩]

/-- Where no arbitrary collaborator answers, a read of a mapped address returns its byte and changes nothing (R56, R69). -/
theorem readByte_stored {s : State} {a : Word} (hm : s.mapped a = true) (hd : s.delegated a = false) :
    readByte a s = .ok (s.peek a) s := by
  rw [readByte_ok hm, State.readValue_of_not_delegated hd, State.afterRead_of_not_delegated hd]

/-- A byte write that succeeds was to a writable address, and leaves what the store leaves. -/
theorem writeByte_eq_ok {a : Word} {v : Byte} {s t : State} (h : writeByte a v s = .ok () t) :
    s.writable a = true ∧ t = s.store a v := by
  cases hw : s.writable a with
  | false => rw [writeByte_raise hw] at h; cases h
  | true => rw [writeByte_ok hw] at h; cases h; exact ⟨rfl, rfl⟩

/-- A byte read that succeeds was of a mapped address, and answers its value. -/
theorem readByte_eq_ok {a : Word} {w : Byte} {s t : State} (h : readByte a s = .ok w t) :
    s.mapped a = true ∧ w = s.readValue a ∧ t = s.afterRead a := by
  cases hm : s.mapped a with
  | false => rw [readByte_raise hm] at h; cases h
  | true => rw [readByte_ok hm] at h; cases h; exact ⟨rfl, rfl, rfl⟩

/-- Settles O12: the region of the address decides what a read and a write answer. -/
theorem byteAccessRoutes : Obligations.ByteAccessRoutes := by
  unfold Obligations.ByteAccessRoutes
  intro a v s hd
  refine ⟨fun h => ?_, fun r hr => ?_⟩
  · have hm := State.mapped_of_route_none h
    exact ⟨readByte_raise hm, writeByte_unmapped hm v⟩
  have hm := State.mapped_of_route_some hr
  have hw := State.writable_of_route_some hr
  refine ⟨readByte_stored hm hd, fun hro => writeByte_readOnly hm (hw.trans hro) v, fun hrw => ?_⟩
  refine ⟨s.store a v, writeByte_ok (hw.trans hrw) v, ?_, State.peek_store_self hd v, fun b hb => s.peek_store_ne hb v⟩
  rw [State.store_of_not_delegated hd]

/-- Settles O13: of the regions only the I/O block delegates, and its range is 0xFF00 to 0xFF4B. -/
theorem ioDelegation : Obligations.IoDelegation := by
  unfold Obligations.IoDelegation
  intro a v s
  refine ⟨⟨delegated_range, fun ⟨hio, hlow, hhigh⟩ => ?_⟩, fun hd => ?_⟩
  · have hr := route_eq_some_iff_range.2
      ⟨mem_regionTable (m := s.config.mapMode).2 (.inr (.inr (.inr (.inl rfl)))), hlow, hhigh⟩
    simp [State.delegated, hio, hr]
  · have hw := writable_of_delegated hd
    exact ⟨by simp [readByte_ok (mapped_of_writable hw), State.readValue, State.afterRead, hd],
      by simp [writeByte_ok hw, State.store, hd]⟩

/-- A store leaves what a read of another address returns. -/
theorem State.readValue_store_ne (s : State) {a b : Word} (h : b ≠ a) (v : Byte) :
    (s.store a v).readValue b = s.readValue b := by
  simp only [State.readValue, State.delegated_store, State.store_draws, s.peek_store_ne h]

/-- A read leaves what it would leave of any other memory. -/
theorem State.afterRead_setMem (s : State) (m : Memory) (a : Word) :
    ({ s with mem := m } : State).afterRead a = { s.afterRead a with mem := m } := by
  have hd : ({ s with mem := m } : State).delegated a = s.delegated a := rfl
  unfold State.afterRead
  rw [hd]
  split <;> rfl

/-- Settles O14: the store holds the byte at its address and leaves the value of every other. -/
theorem storeThenLoad : Obligations.StoreThenLoad := by
  unfold Obligations.StoreThenLoad
  intro a b v s t ht hd
  obtain ⟨hw, rfl⟩ := writeByte_eq_ok ht
  refine ⟨?_, fun hb w u hu => ?_⟩
  · rw [readByte_stored (by simpa using mapped_of_writable hw) (by simpa using hd), State.peek_store_self hd]
  · obtain ⟨hm, rfl, rfl⟩ := readByte_eq_ok hu
    refine ⟨(s.store a v).afterRead b, ?_, ?_⟩
    · rw [readByte_ok (by simpa using hm), s.readValue_store_ne hb]
    · rw [State.store_of_not_delegated hd, State.afterRead_setMem]

/-! ## Word accesses (20_memory.md R61 to R64) -/

/-- Settles O15: the two byte accesses in order, on the two bytes of the word. -/
theorem wordAccessLittleEndian : Obligations.WordAccessLittleEndian := by
  unfold Obligations.WordAccessLittleEndian
  refine ⟨fun a s => ⟨readWord_raise_first, readWord_raise_second, fun h h1 => ⟨_, readWord_ok h h1, cat_toNat _ _⟩⟩,
    fun a v s => ?_⟩
  rw [← loByte_eq_ofNat, ← hiByte_eq_ofNat]
  exact ⟨fun h => writeWord_raise_first h v, fun h h1 => writeWord_raise_second h h1 v, fun h h1 => writeWord_ok h h1 v⟩

/-- Below the I/O block nothing is delegated. -/
theorem not_delegated_of_lt {s : State} {a : Word} (h : a.toNat < 0xFF00) : s.delegated a = false := by
  cases hd : s.delegated a with
  | false => rfl
  | true => exact absurd (delegated_range hd).2.1 (Nat.not_le.2 h)

/-- A word write at 0xFFFF raises UnmappedAddress there (R64). -/
theorem writeWord_top (v : Word) (s : State) : writeWord 0xFFFF v s = .raise (.unmappedAddress 0xFFFF) s := by
  have htop := mapped_top s
  rw [writeWord_raise_first (State.writable_of_not_mapped htop), State.writeFault_of_not_mapped htop]

/-- With SP = 0x0000 a pop reads the image bytes 0x0001 and 0x0002 (R334). -/
theorem pop_of_sp_zero {s : State} (h : s.sp = 0) : pop s = .ok (cat (s.peek 2) (s.peek 1)) { s with sp := 2 } := by
  have h1 : s.sp + 1 = 1 := by rw [h]; rfl
  have h2 : s.sp + 2 = 2 := by rw [h]; rfl
  have hm1 : s.mapped 1 = true := State.mapped_of_route_some (route_image _ (by decide))
  have hm2 : s.mapped 2 = true := State.mapped_of_route_some (route_image _ (by decide))
  have hd1 : s.delegated 1 = false := not_delegated_of_lt (by decide)
  have hd2 : s.delegated 2 = false := not_delegated_of_lt (by decide)
  rw [pop_ok (by rw [h1]; exact hm1) (by rw [h2]; exact hm2), h1, h2, State.afterRead_of_not_delegated hd1,
    State.afterRead_of_not_delegated hd2, State.readValue_of_not_delegated hd1, State.readValue_of_not_delegated hd2]
  rfl

/-- Settles O18: the lower address comes first, and 0xFFFF is unmapped; with SP = 0x0000 a push's word is there. -/
theorem topOfBusAndDefaultStack : Obligations.TopOfBusAndDefaultStack := by
  unfold Obligations.TopOfBusAndDefaultStack
  refine ⟨fun v s => ⟨readWord_raise_first (mapped_top s), writeWord_top v s⟩, rfl, fun s v h => ⟨?_, pop_of_sp_zero h⟩⟩
  have hlow : s.sp - 1 = 0xFFFF := by rw [h]; rfl
  rw [push, hlow, writeWord_top, Result.bind_raise]

/-! ## Stores that fault (20_memory.md R57; 60_exceptions.md R303, R304) -/

/-- An instruction whose first sub-step after its own bytes raises leaves PC past them, and nothing else changed. -/
theorem exec_faultedAt {i : Instr} {s : State} {k : FaultKind}
    (h : bodyOf i (s.advance (BitVec.ofNat 16 i.length)) = .raise k (s.advance (BitVec.ofNat 16 i.length))) :
    exec i s = .next (s.faultedAt (BitVec.ofNat 16 i.length) k) := by
  rw [exec_final, h]
  rfl

/-- A store instruction to an address that is not writable takes the fault of the byte write. -/
theorem exec_store_faultedAt {i : Instr} {m : MemOperand} {r : Slot} (hbody : bodyOf i = storeSlot m r) {s : State}
    (hw : s.writable (m.address s) = false) :
    exec i s = .next (s.faultedAt (BitVec.ofNat 16 i.length) (s.writeFault (m.address s))) := by
  refine exec_faultedAt ?_
  rw [hbody, storeSlot_raise r (by rw [MemOperand.address_advance, State.writable_advance, hw]), MemOperand.address_advance,
    State.writeFault_congr (State.advance_config s _)]

/-- Both faults of a store instruction, by whether its address is mapped. -/
theorem exec_store_faults {i : Instr} (m : MemOperand) {r : Slot} (hbody : bodyOf i = storeSlot m r) (s : State) :
    (s.mapped (m.address s) = false →
      exec i s = .next (s.faultedAt (BitVec.ofNat 16 i.length) (.unmappedAddress (m.address s)))) ∧
    (s.mapped (m.address s) = true → s.writable (m.address s) = false →
      exec i s = .next (s.faultedAt (BitVec.ofNat 16 i.length) (.readOnlyViolation (m.address s)))) := by
  refine ⟨fun hm => ?_, fun hm hw => ?_⟩
  · rw [exec_store_faultedAt hbody (State.writable_of_not_mapped hm), State.writeFault_of_not_mapped hm]
  · rw [exec_store_faultedAt hbody hw, State.writeFault_of_mapped hm]

/-- Settles O26: each listed store comes with its operand's address and its length. -/
theorem storeFaults : Obligations.StoreFaults := by
  unfold Obligations.StoreFaults
  intro s o x hx
  simp only [List.mem_cons, List.not_mem_nil, or_false] at hx
  rcases hx with rfl | rfl | rfl | rfl | rfl | rfl | rfl | rfl | rfl | rfl | rfl | rfl | rfl
  · exact exec_store_faults .bc rfl s
  · exact exec_store_faults .de rfl s
  · exact exec_store_faults .hlInc rfl s
  · exact exec_store_faults .hlDec rfl s
  iterate 7 exact exec_store_faults .hl rfl s
  · exact exec_store_faults (.ioImm o) rfl s
  · exact exec_store_faults .ioC rfl s

end Sys2Proof.Machine

/-! PROOFS of the statements on 30_encoding.md. The decoder against the encoder. -/

namespace Sys2Proof

/-! ## Which bytes have which entry (30_encoding.md R82, R84, R85, R92) -/

theorem primaryEntry_of_illegal {b : Byte} (h : Machine.illegalPrimary b = true) : primaryEntry b = none := by
  rw [← primaryEntry_isNone] at h
  exact Option.isNone_iff_eq_none.1 h

theorem primaryEntry_of_legal {b : Byte} (h : Machine.illegalPrimary b = false) : ∃ e, primaryEntry b = some e := by
  rw [← primaryEntry_isNone] at h
  exact Option.isSome_iff_exists.1 (Option.isNone_eq_false_iff.1 h)

/-- R84 lists the secondary bytes that R92 does not. -/
theorem hasSecondaryEntry_eq (b : Byte) : hasSecondaryEntry b = !Machine.illegalSecondary b := by
  rw [← secondaryEntry_isSome, ← secondaryEntry_isNone, Option.not_isNone]

/-- 0xCB is the one byte that escapes to the secondary table. -/
theorem primaryEntry_eq_escape_iff {b : Byte} : primaryEntry b = some .escape ↔ b = 0xCB :=
  ⟨fun h => primaryTable_matches _ (primaryEntry_mem h), fun h => h ▸ rfl⟩

theorem primaryEntry_of_lengthTwo {b : Byte} (h : b ∈ Machine.lengthTwoOpcodes) : ∃ mk, primaryEntry b = some (.imm8 mk) := by
  simp only [Machine.lengthTwoOpcodes, List.mem_cons, List.not_mem_nil, or_false] at h
  rcases h with rfl | rfl | rfl | rfl | rfl | rfl | rfl | rfl | rfl | rfl | rfl | rfl | rfl | rfl | rfl | rfl | rfl <;>
    exact ⟨_, rfl⟩

theorem primaryEntry_of_lengthThree {b : Byte} (h : b ∈ Machine.lengthThreeOpcodes) :
    ∃ mk, primaryEntry b = some (.imm16 mk) := by
  simp only [Machine.lengthThreeOpcodes, List.mem_cons, List.not_mem_nil, or_false] at h
  rcases h with rfl | rfl | rfl | rfl | rfl | rfl | rfl | rfl | rfl | rfl <;> exact ⟨_, rfl⟩

/-! ## What a table entry makes of the bytes after the opcode (30_encoding.md R82, R84, R85) -/

/-- An entry of the primary table, with the bytes after its opcode, makes an instruction: none, the immediate, the little-endian
word, or the byte after 0xCB. -/
inductive Entry.Makes : Entry → List Byte → Instr → Prop
  | plain (i : Instr) : Makes (.plain i) [] i
  | imm8 (mk : Byte → Instr) (d : Byte) : Makes (.imm8 mk) [d] (mk d)
  | imm16 (mk : Word → Instr) (lo hi : Byte) : Makes (.imm16 mk) [lo, hi] (mk (cat hi lo))
  | escape (b2 : Byte) : Makes .escape [b2] (decodeEscaped b2)

/-- A word immediate is made of its low byte and then its high byte. -/
theorem Entry.Makes.word (mk : Word → Instr) (v : Word) : Makes (.imm16 mk) [loByte v, hiByte v] (mk v) := by
  have h := Makes.imm16 mk (loByte v) (hiByte v)
  rwa [cat_hiByte_loByte] at h

/-- The decoder answers what the entry of the first byte makes, and the bytes it did not use. -/
theorem decode_of_makes {b : Byte} {e : Entry} {imm : List Byte} {i : Instr} (he : primaryEntry b = some e)
    (hi : e.Makes imm i) (rest : List Byte) : decode (b :: imm ++ rest) = .ok (i, rest) := by
  cases hi <;> simp only [decode, he, List.cons_append, List.nil_append]

/-- What the decoder answers, the entry of the first byte makes. -/
theorem makes_of_decode {bytes rest : List Byte} {i : Instr} (h : decode bytes = .ok (i, rest)) :
    ∃ b e imm, bytes = b :: imm ++ rest ∧ primaryEntry b = some e ∧ e.Makes imm i := by
  cases bytes with
  | nil => cases h
  | cons b tail =>
    unfold decode at h
    cases he : primaryEntry b with
    | none => simp only [he] at h; cases h
    | some e =>
      simp only [he] at h
      refine ⟨b, e, ?_⟩
      cases e with
      | plain j => cases h; exact ⟨[], rfl, he, .plain _⟩
      | imm8 mk =>
        match tail, h with
        | d :: _, h => cases h; exact ⟨[d], rfl, he, .imm8 mk d⟩
      | imm16 mk =>
        match tail, h with
        | lo :: hi :: _, h => cases h; exact ⟨[lo, hi], rfl, he, .imm16 mk lo hi⟩
      | escape =>
        match tail, h with
        | b2 :: _, h => cases h; exact ⟨[b2], rfl, he, .escape b2⟩

/-- An instruction the table makes is well formed, and its encoding is the opcode and the bytes it was made of. -/
theorem encode_of_makes {b : Byte} {e : Entry} {imm : List Byte} {i : Instr} (he : primaryEntry b = some e)
    (hi : e.Makes imm i) : i.wf = true ∧ encode i = b :: imm := by
  have hmatch : EntryMatches b e := primaryTable_matches _ (primaryEntry_mem he)
  cases hi with
  | plain => exact hmatch
  | imm8 mk d => exact hmatch d
  | imm16 mk lo hi => simpa only [loByte_cat, hiByte_cat] using hmatch (cat hi lo)
  | escape b2 => cases (show b = 0xCB from hmatch); exact decodeEscaped_matches b2

/-- Every well-formed instruction is made by the entry of its encoding's first byte. -/
theorem exists_makes_of_wf {i : Instr} (h : i.wf = true) :
    ∃ b e imm, encode i = b :: imm ∧ primaryEntry b = some e ∧ e.Makes imm i := by
  cases i
  case cbPrefix b =>
    have hb : secondaryEntry b = none := secondaryEntry_none (by simpa [Instr.wf] using h)
    have hi := Entry.Makes.escape b
    rw [decodeEscaped, hb, Option.getD_none] at hi
    exact ⟨0xCB, .escape, [b], rfl, rfl, hi⟩
  case rlB | rlC | rlD | rlE | rlH | rlL | rlA => exact ⟨0xCB, .escape, _, rfl, rfl, .escape _⟩
  case ldBcD16 v | ldDeD16 v | ldHlD16 v | ldSpD16 v | jpNz v | jp v | jpZ v | call v | jpNc v | jpC v =>
    exact ⟨_, .imm16 _, _, rfl, rfl, .word _ v⟩
  case ldBD8 d | ldCD8 d | ldDD8 d | ldED8 d | ldHD8 d | ldLD8 d | ldAD8 d | jr d | jrNz d | jrZ d | jrNc d | jrC d | subD8 d
      | xorD8 d | cpD8 d | ldhMemA d | ldhAMem d =>
    exact ⟨_, .imm8 _, _, rfl, rfl, .imm8 _ d⟩
  all_goals exact ⟨_, .plain _, _, rfl, rfl, .plain _⟩

/-- Settles O1: the instruction's encoding is an opcode and the bytes its entry makes it of. -/
theorem decodeEncodeRoundTrip : Obligations.DecodeEncodeRoundTrip := by
  unfold Obligations.DecodeEncodeRoundTrip
  intro i rest h
  obtain ⟨b, e, imm, henc, he, hi⟩ := exists_makes_of_wf h
  rw [henc]
  exact decode_of_makes he hi rest

/-- Settles O2: what decodes was made by an entry, and every entry agrees with the encoder. -/
theorem decodedBytesAreTheEncoding : Obligations.DecodedBytesAreTheEncoding := by
  unfold Obligations.DecodedBytesAreTheEncoding
  intro bytes i rest h
  obtain ⟨b, e, imm, rfl, he, hi⟩ := makes_of_decode h
  obtain ⟨hwf, henc⟩ := encode_of_makes he hi
  exact ⟨hwf, by rw [henc]⟩

/-! ## Lengths (30_encoding.md R85, R94) -/

/-- The encoder writes as many bytes as the instruction is long. -/
theorem encode_length (i : Instr) : (encode i).length = i.length := by cases i <;> rfl

/-- An entry makes all its instructions of equally many bytes. -/
theorem Entry.Makes.length_eq {e : Entry} {imm imm' : List Byte} {i j : Instr} (hi : e.Makes imm i) (hj : e.Makes imm' j) :
    imm.length = imm'.length := by
  cases hi <;> cases hj <;> rfl

/-- An instruction is one byte longer than what its entry made it of. -/
theorem length_of_makes {b : Byte} {e : Entry} {imm : List Byte} {i : Instr} (he : primaryEntry b = some e)
    (hi : e.Makes imm i) : i.length = imm.length + 1 := by
  rw [← encode_length, (encode_of_makes he hi).2, List.length_cons]

/-- Settles O5: the first byte selects the entry, and the entry fixes how many bytes follow. -/
theorem lengthFromFirstByte : Obligations.LengthFromFirstByte := by
  unfold Obligations.LengthFromFirstByte
  intro b x y i j p q hx hy
  obtain ⟨_, e, imm, hbx, he, hi⟩ := makes_of_decode hx
  obtain ⟨_, e', imm', hby, he', hj⟩ := makes_of_decode hy
  cases hbx
  cases hby
  cases he.symm.trans he'
  exact ⟨by rw [length_of_makes he hi, length_of_makes he hj, hi.length_eq hj], encode_length i⟩

/-- Settles O3: each word is looked up in the tables. -/
theorem specWordsDecode : Obligations.SpecWordsDecode := by
  unfold Obligations.SpecWordsDecode
  exact ⟨rfl, rfl, rfl, rfl, rfl, rfl, rfl, rfl, rfl, rfl, rfl, rfl, rfl, rfl⟩

end Sys2Proof

/-! PROOFS of the statements on 30_encoding.md. The PREFIX marker, the step and the trace event. -/

namespace Sys2Proof.Machine

/-! ## The PREFIX marker (30_encoding.md R83, R84, R90) -/

/-- With a register's secondary opcode the marker's sub-steps are those of RL r. -/
theorem bodyOf_cbPrefix_rotate {b : Byte} {r : Slot} (h : rotateRegister b = some r) :
    bodyOf (.cbPrefix b) = rotateSlot r := by
  funext s
  simp only [bodyOf, escapeTo, h]

/-- With a byte that has no secondary entry the marker raises at once. -/
theorem bodyOf_cbPrefix_raise {b : Byte} (h : hasSecondaryEntry b = false) (s : State) :
    bodyOf (.cbPrefix b) s = .raise (.illegalOpcode b true) s := by
  simp only [bodyOf, escapeTo, rotateRegister, secondaryEntry_none h]

/-- The marker before a byte with no secondary entry leaves the fault, PC after the two bytes. -/
theorem exec_cbPrefix_illegal {b : Byte} (h : hasSecondaryEntry b = false) (s : State) :
    exec (.cbPrefix b) s = .next (s.faultedAt 2 (.illegalOpcode b true)) :=
  exec_faultedAt (bodyOf_cbPrefix_raise h _)

/-- The marker before a register's secondary opcode is any instruction of two bytes with the sub-steps of RL r. -/
theorem exec_cbPrefix_rotate {b : Byte} {r : Slot} {i : Instr} (hb : rotateRegister b = some r) (hi : bodyOf i = rotateSlot r)
    (hlen : i.length = 2) (s : State) : exec (.cbPrefix b) s = exec i s := by
  rw [exec_eq, exec_eq, bodyOf_cbPrefix_rotate hb, hi, hlen]
  rfl

/-- Settles O46: each listed byte comes with its register, and the other bytes raise at once. -/
theorem prefixMarker : Obligations.PrefixMarker := by
  unfold Obligations.PrefixMarker
  refine ⟨fun s x hx => ?_, fun s b hwf => exec_cbPrefix_illegal (by simpa [Instr.wf] using hwf) s⟩
  simp only [List.mem_cons, List.not_mem_nil, or_false] at hx
  rcases hx with rfl | rfl | rfl | rfl | rfl | rfl | rfl <;> exact exec_cbPrefix_rotate rfl rfl rfl s

/-! ## A fetch that completes (30_encoding.md R88 to R90) -/

theorem State.codeMapped.pc {s : State} {n : Nat} (h : s.codeMapped (n + 1)) : s.mapped s.pc = true := by
  simpa using h 0 n.succ_pos

/-- A fetch of mapped bytes answers what the entry of the opcode makes, PC after them. -/
theorem fetch_of_makes {s : State} {b : Byte} {e : Entry} {imm : List Byte} {i : Instr} (he : primaryEntry b = some e)
    (hi : e.Makes imm i) (hm : s.codeMapped (imm.length + 1)) (hb : s.codeBytes (imm.length + 1) = b :: imm) :
    fetch s = .ok i ((s.afterFetch (imm.length + 1)).advance (BitVec.ofNat 16 (imm.length + 1))) := by
  have hpc : s.mapped s.pc = true := hm.pc
  cases hi with
  | plain =>
    cases hb
    simp only [fetch_eq hpc, he]
    rfl
  | imm8 mk d =>
    cases (show [s.codeByte 0, s.codeByte 1] = [b, d] from hb)
    simp only [fetch_eq hpc, he, imm8_ok (hm 1 (by simp)), Result.bind_ok]
    rfl
  | imm16 mk lo hi =>
    cases (show [s.codeByte 0, s.codeByte 1, s.codeByte 2] = [b, lo, hi] from hb)
    simp only [fetch_eq hpc, he, imm16_ok (hm 1 (by simp)) (hm 2 (by simp)), Result.bind_ok]
    rfl
  | escape b2 =>
    cases (show [s.codeByte 0, s.codeByte 1] = [b, b2] from hb)
    simp only [fetch_eq hpc, he, imm8_ok (hm 1 (by simp)), Result.bind_ok]
    rfl

/-- A step whose bytes an entry makes an instruction of runs it from its own address. -/
theorem step_of_makes {s : State} {b : Byte} {e : Entry} {imm : List Byte} {i : Instr} (hr : s.status = .running)
    (he : primaryEntry b = some e) (hi : e.Makes imm i) (hm : s.codeMapped (imm.length + 1))
    (hb : s.codeBytes (imm.length + 1) = b :: imm) : step s = exec i (s.afterFetch (imm.length + 1)) := by
  rw [step_ok hr (fetch_of_makes he hi hm hb), setPc_afterFetch]

/-- Where no arbitrary collaborator supplies the bytes, they are the stored ones at PC. -/
theorem State.codeBytes_of_not_delegated {s : State} {n : Nat}
    (h : ∀ k < n, s.delegated (s.pc + BitVec.ofNat 16 k) = false) :
    s.codeBytes n = (List.range n).map fun k => s.peek (s.pc + BitVec.ofNat 16 k) := by
  refine List.map_congr_left fun k hk => ?_
  have hk : k < n := List.mem_range.1 hk
  rw [State.codeByte, State.afterFetch_of_not_delegated fun j hj => h j (hj.trans hk), State.readValue_of_not_delegated (h k hk)]

/-- Settles O6: bytes that decode were made by an entry, so the fetch answers the same instruction. -/
theorem stepRunsDecodedInstruction : Obligations.StepRunsDecodedInstruction := by
  unfold Obligations.StepRunsDecodedInstruction
  intro s i hr _ hm hd
  obtain ⟨b, e, imm, hb, he, hi⟩ := makes_of_decode hd
  rw [length_of_makes he hi] at hm hb ⊢
  rw [List.append_nil] at hb
  have hstep := step_of_makes hr he hi hm hb
  exact ⟨hstep, fun hn => ⟨State.codeBytes_of_not_delegated hn, by rw [hstep, State.afterFetch_of_not_delegated hn]⟩⟩

/-! ## Bytes with no entry (30_encoding.md R92) -/

/-- A step from Running whose fetch raises takes the fault. -/
theorem step_fetch_faultedAt {s : State} (hr : s.status = .running) {n : Nat} {len : Word} {k : FaultKind}
    (h : fetch s = .raise k ((s.afterFetch n).advance len)) : step s = .next ((s.afterFetch n).faultedAt len k) := by
  rw [step_raise hr h, enterFault_afterFetch]

/-- Settles O4: a listed primary byte ends the fetch, and after 0xCB a listed secondary byte decodes to the marker. -/
theorem illegalEncodingsFault : Obligations.IllegalEncodingsFault := by
  unfold Obligations.IllegalEncodingsFault
  refine ⟨fun b => ⟨primaryEntry_isNone b, secondaryEntry_isNone b⟩, by decide +kernel, by decide +kernel,
    fun s hr hm hb => ?_, fun s hr hm hcb hb => ?_⟩
  · have hpc : s.mapped s.pc = true := hm.pc
    exact step_fetch_faultedAt hr (by simp only [fetch_eq hpc, primaryEntry_of_illegal hb])
  · have hn : hasSecondaryEntry (s.codeByte 1) = false := by rw [hasSecondaryEntry_eq, hb]; rfl
    have hbytes : s.codeBytes 2 = 0xCB :: [s.codeByte 1] := by rw [← hcb]; rfl
    rw [step_of_makes (e := .escape) hr rfl (.escape _) hm hbytes, decodeEscaped, secondaryEntry_none hn]
    exact exec_cbPrefix_illegal hn _

/-! ## A fetch that meets an unmapped address (60_exceptions.md R303) -/

/-- Settles O7: the opcode's entry says which reads follow, and the first unmapped one ends the fetch where it stands. -/
theorem fetchFaults : Obligations.FetchFaults := by
  unfold Obligations.FetchFaults
  intro s hr
  refine ⟨fun hm => ?_, fun hm h1 hb => ?_, fun hm h1 hb => ?_, fun hm h1 h2 hb => ?_⟩
  · have hf : fetch s = .raise (.unmappedAddress s.pc) s := by rw [fetch, readByte_raise hm, Result.bind_raise]
    rw [step_raise hr hf]
    simp [enterFault, State.faultedAt]
  · exact step_fetch_faultedAt hr (by
      simp only [fetch_eq hm, primaryEntry_eq_escape_iff.2 hb, imm8_raise h1, Result.bind_raise])
  · rcases hb with hb | hb
    · obtain ⟨mk, he⟩ := primaryEntry_of_lengthTwo hb
      exact step_fetch_faultedAt hr (by simp only [fetch_eq hm, he, imm8_raise h1, Result.bind_raise])
    · obtain ⟨mk, he⟩ := primaryEntry_of_lengthThree hb
      exact step_fetch_faultedAt hr (by simp only [fetch_eq hm, he, imm16_raise_first h1, Result.bind_raise])
  · obtain ⟨mk, he⟩ := primaryEntry_of_lengthThree hb
    exact step_fetch_faultedAt hr (by simp only [fetch_eq hm, he, imm16_raise_second h1 h2, Result.bind_raise])

/-! ## The trace event (30_encoding.md R91) -/

/-- The first read of a step, of a mapped PC. -/
theorem readByte_opcode {s : State} (h : s.mapped s.pc = true) : readByte s.pc s = .ok (s.codeByte 0) (s.afterFetch 1) := by
  rw [readByte_ok h, State.codeByte_zero, State.afterFetch_one]

/-- The second read of a step, of a mapped address after PC. -/
theorem readByte_second {s : State} (h : s.mapped (s.pc + 1) = true) :
    readByte (s.pc + 1) (s.afterFetch 1) = .ok (s.codeByte 1) (s.afterFetch 2) :=
  readByte_ok ((s.afterFetch_mapped 1 _).trans h)

/-- Settles O60: the opcode read and its entry decide, and after 0xCB the second byte read and its entry. -/
theorem traceNamesDecodedOperation : Obligations.TraceNamesDecodedOperation := by
  unfold Obligations.TraceNamesDecodedOperation
  intro s hr
  refine ⟨fun hm => ?_, fun hm hb => ?_, fun hm hb hcb => ?_, fun hm hcb h1 => ?_, fun hm hcb h1 => ?_⟩
  · simp only [traceEvent, hr, readByte_raise hm]
  · simp only [traceEvent, hr, readByte_opcode hm, primaryEntry_of_illegal hb]
  · obtain ⟨e, he⟩ := primaryEntry_of_legal hb
    simp only [traceEvent, hr, readByte_opcode hm, he]
    cases e with
    | plain | imm8 | imm16 => rfl
    | escape => exact absurd (primaryEntry_eq_escape_iff.1 he) hcb
  · have hsecond := readByte_raise ((s.afterFetch_mapped 1 _).trans h1)
    simp only [traceEvent, hr, readByte_opcode hm, primaryEntry_eq_escape_iff.2 hcb, hsecond]
  · simp only [traceEvent, hr, readByte_opcode hm, primaryEntry_eq_escape_iff.2 hcb, readByte_second h1, secondaryEntry_isSome,
      hasSecondaryEntry_eq]
    cases illegalSecondary (s.codeByte 1) <;> rfl

end Sys2Proof.Machine

/-! PROOFS of the statements on 40_loads.md. The states that completing loads and stores leave. -/

namespace Sys2Proof.Machine

/-! ## What an instruction that completes leaves -/

/-- An instruction whose sub-steps complete leaves what they leave. -/
theorem exec_next {i : Instr} {s t : State} (h : bodyOf i (s.advance (BitVec.ofNat 16 i.length)) = .ok () t) :
    exec i s = .next t := by
  rw [exec_final, h, Result.final_ok]

/-! ## Immediate loads (40_loads.md R101 to R111) -/

/-- An immediate byte load writes its slot and PC. -/
theorem exec_loadByte {i : Instr} {r : Slot} {d : Byte} (hbody : bodyOf i = loadByte r d) (hr : r ≠ .f) (s : State) :
    ∃ t, exec i s = .next t ∧ t = { s with regs := t.regs, pc := s.pc + BitVec.ofNat 16 i.length } ∧ t.slot r = d ∧
      ∀ q, q ≠ r → t.slot q = s.slot q := by
  refine ⟨(s.advance (BitVec.ofNat 16 i.length)).setSlot r d, exec_next (by rw [hbody, loadByte]), State.setSlot_eq _ r d, ?_,
    fun q hq => ?_⟩
  · rw [State.slot_setSlot_self, if_neg hr]
  · rw [State.slot_setSlot_ne _ hq, State.slot_advance]

/-- Settles O22: each listed instruction comes with the slot it loads. -/
theorem loadImmediateByte : Obligations.LoadImmediateByte := by
  unfold Obligations.LoadImmediateByte
  intro s d x hx
  simp only [List.mem_cons, List.not_mem_nil, or_false] at hx
  rcases hx with rfl | rfl | rfl | rfl | rfl | rfl | rfl <;> exact exec_loadByte rfl (by nofun) s

/-- An immediate word load of a pair other than AF writes the pair's two slots and PC. -/
theorem exec_loadWord {i : Instr} (p : Pair) {v : Word} (hbody : bodyOf i = loadWord (.pair p) v) (hp : p ≠ .af) (s : State) :
    ∃ t, exec i s = .next t ∧ t = { s with regs := t.regs, pc := s.pc + BitVec.ofNat 16 i.length } ∧
      (t.slot p.hi).toNat = v.toNat / 256 ∧ (t.slot p.lo).toNat = v.toNat % 256 ∧
      ∀ q, q ≠ p.hi → q ≠ p.lo → t.slot q = s.slot q := by
  obtain ⟨-, hhi, hlo, hother, hregs⟩ := registerPair (s.advance (BitVec.ofNat 16 i.length)) v p
  rw [if_neg hp] at hlo
  exact ⟨_, exec_next (by rw [hbody, loadWord, WordOperand.set]), hregs, hhi, hlo, hother⟩

/-- Settles O23: each listed pair comes with its high and low slot, and SP is written as a word. -/
theorem loadImmediateWord : Obligations.LoadImmediateWord := by
  unfold Obligations.LoadImmediateWord
  refine ⟨fun s v x hx => ?_, fun s v => exec_next rfl⟩
  simp only [List.mem_cons, List.not_mem_nil, or_false] at hx
  rcases hx with rfl | rfl | rfl
  · exact exec_loadWord .bc rfl (by decide) s
  · exact exec_loadWord .de rfl (by decide) s
  · exact exec_loadWord .hl rfl (by decide) s

/-! ## The post-increment and post-decrement of HL (40_loads.md R100) -/

/-- A memory operand that moves no slot leaves the state after the access. -/
theorem MemOperand.post_of_not_moved {m : MemOperand} (h : m.moved = []) (a : Word) (s : State) : m.post a s = s := by
  cases m with
  | hlInc | hlDec => cases h
  | bc | de | hl | ioImm _ | ioC => rfl

/-- The sub-step after the access changes the register file alone. -/
theorem MemOperand.post_eq (m : MemOperand) (a : Word) (s : State) : m.post a s = { s with regs := (m.post a s).regs } := by
  cases m with
  | hlInc | hlDec => exact State.setPair_eq s .hl _
  | bc | de | hl | ioImm _ | ioC => rfl

/-- HL reads back the word written to it. -/
theorem State.pair_setPair_hl (s : State) (v : Word) : (s.setPair .hl v).pair .hl = v := s.pair_setPair .hl v

/-! ## Stores that complete (40_loads.md R112 to R115, R127 to R134, R136) -/

/-- The state a completing store of `n` bytes leaves: its slot at the address of its operand, PC past the instruction, and HL
moved where the operand moves it. -/
def State.stored (s : State) (m : MemOperand) (r : Slot) (n : Word) : State :=
  m.post (m.address s) ((s.store (m.address s) (s.slot r)).advance n)

/-- A store to a writable address completes. -/
theorem exec_stored {i : Instr} {m : MemOperand} {r : Slot} (hbody : bodyOf i = storeSlot m r) {s : State}
    (hw : s.writable (m.address s) = true) : exec i s = .next (s.stored m r (BitVec.ofNat 16 i.length)) := by
  refine exec_next ?_
  rw [hbody, storeSlot_ok r (by rw [MemOperand.address_advance, State.writable_advance, hw]), MemOperand.address_advance,
    State.slot_advance, State.store_advance, State.stored]

/-- A store changes, beside what storing the byte changes, the register file and PC alone. -/
theorem State.stored_eq (s : State) (m : MemOperand) (r : Slot) (n : Word) :
    s.stored m r n = { s.store (m.address s) (s.slot r) with regs := (s.stored m r n).regs, pc := s.pc + n } := by
  rw [← s.store_pc (m.address s) (s.slot r)]
  exact m.post_eq _ _

/-- The slots its operand does not move, a store leaves. -/
theorem State.slot_stored (s : State) {m : MemOperand} (r : Slot) (n : Word) {q : Slot} (h : q ∉ m.moved) :
    (s.stored m r n).slot q = s.slot q := by
  rw [State.stored, m.slot_post _ _ h, State.slot_advance, State.slot_store]

/-- The bytes of memory are those storing the byte leaves. -/
theorem State.peek_stored (s : State) (m : MemOperand) (r : Slot) (n : Word) (b : Word) :
    (s.stored m r n).peek b = (s.store (m.address s) (s.slot r)).peek b :=
  State.peek_congr (by rw [State.stored_eq]) b

/-- The byte at the operand's address reads as the slot, unless the arbitrary collaborator took it. -/
theorem State.peek_stored_self {s : State} {m : MemOperand} (hd : s.delegated (m.address s) = false) (r : Slot) (n : Word) :
    (s.stored m r n).peek (m.address s) = s.slot r := by
  rw [State.peek_stored, State.peek_store_self hd]

/-- Every other byte reads as before. -/
theorem State.peek_stored_ne (s : State) {m : MemOperand} (r : Slot) (n : Word) {b : Word} (hb : b ≠ m.address s) :
    (s.stored m r n).peek b = s.peek b := by
  rw [State.peek_stored, s.peek_store_ne hb]

/-- A store whose operand moves no slot changes, beside what storing the byte changes, PC alone. -/
theorem State.stored_of_not_moved (s : State) {m : MemOperand} (h : m.moved = []) (r : Slot) (n : Word) :
    s.stored m r n = { s.store (m.address s) (s.slot r) with pc := s.pc + n } := by
  rw [State.stored, MemOperand.post_of_not_moved h, State.advance, State.store_pc]

/-- What a store that leaves HL does when its address is writable. -/
theorem exec_store_result {i : Instr} (m : MemOperand) {r : Slot} (hbody : bodyOf i = storeSlot m r) (hmoved : m.moved = [])
    (s : State) (hw : s.writable (m.address s) = true) :
    ∃ t, exec i s = .next t ∧
      t = { s.store (m.address s) (s.slot r) with pc := s.pc + BitVec.ofNat 16 i.length } ∧
      (s.delegated (m.address s) = false → t.peek (m.address s) = s.slot r) ∧
      ∀ b, b ≠ m.address s → t.peek b = s.peek b :=
  ⟨_, exec_stored hbody hw, s.stored_of_not_moved hmoved r _, fun hd => State.peek_stored_self hd r _,
    fun _ => s.peek_stored_ne r _⟩

/-- Settles O24: each listed store comes with its operand's address, its slot and its length. -/
theorem storeResult : Obligations.StoreResult := by
  unfold Obligations.StoreResult
  intro s o x hx
  simp only [List.mem_cons, List.not_mem_nil, or_false] at hx
  rcases hx with rfl | rfl | rfl | rfl | rfl | rfl | rfl | rfl | rfl | rfl | rfl
  · exact exec_store_result .bc rfl rfl s
  · exact exec_store_result .de rfl rfl s
  iterate 7 exact exec_store_result .hl rfl rfl s
  · exact exec_store_result (.ioImm o) rfl rfl s
  · exact exec_store_result .ioC rfl rfl s

/-- What a store that moves HL leaves: `v` is the operand's new value of HL. -/
theorem exec_store_moveHl {i : Instr} (m : MemOperand) {r : Slot} {v : Word} (hbody : bodyOf i = storeSlot m r)
    (hmoved : m.moved = [.h, .l]) {s : State} (hpost : ∀ u, m.post (m.address s) u = u.setPair .hl v)
    (hw : s.writable (m.address s) = true) :
    ∃ t, exec i s = .next t ∧
      t = { s.store (m.address s) (s.slot r) with regs := t.regs, pc := s.pc + BitVec.ofNat 16 i.length } ∧
      t.pair .hl = v ∧ (∀ q, q ≠ .h → q ≠ .l → t.slot q = s.slot q) ∧
      (s.delegated (m.address s) = false → t.peek (m.address s) = s.slot r) ∧
      ∀ b, b ≠ m.address s → t.peek b = s.peek b := by
  refine ⟨_, exec_stored hbody hw, s.stored_eq m r _, ?_, fun q hh hl => ?_, fun hd => State.peek_stored_self hd r _,
    fun _ => s.peek_stored_ne r _⟩
  · rw [State.stored, hpost, State.pair_setPair_hl]
  · exact s.slot_stored r _ (by simp [hmoved, hh, hl])

/-- Settles O25: the store is at the old HL, and HL moves from it. -/
theorem storeThenMoveHl : Obligations.StoreThenMoveHl := by
  unfold Obligations.StoreThenMoveHl
  intro s x hx
  simp only [List.mem_cons, List.not_mem_nil, or_false] at hx
  rcases hx with rfl | rfl
  · exact exec_store_moveHl .hlInc rfl rfl fun _ => rfl
  · exact exec_store_moveHl .hlDec rfl rfl fun _ => rfl

/-! ## Loads that complete (40_loads.md R116 to R126, R135, R137) -/

/-- The state a completing load of `n` bytes leaves: its slot with the byte at the address of its operand, PC past the
instruction, and HL moved where the operand moves it. The address is the operand's before the slot is written. -/
def State.loaded (s : State) (r : Slot) (m : MemOperand) (n : Word) : State :=
  m.post (m.address s) (((s.afterRead (m.address s)).advance n).setSlot r (s.readValue (m.address s)))

/-- A load from a mapped address completes. -/
theorem exec_loaded {i : Instr} {r : Slot} {m : MemOperand} (hbody : bodyOf i = loadSlot r m) {s : State}
    (hm : s.mapped (m.address s) = true) : exec i s = .next (s.loaded r m (BitVec.ofNat 16 i.length)) := by
  refine exec_next ?_
  rw [hbody, loadSlot_ok r (by rw [MemOperand.address_advance, State.mapped_advance, hm]), MemOperand.address_advance,
    State.afterRead_advance, State.readValue_advance, State.loaded]

/-- A load changes, beside what the read changes, the register file and PC alone. -/
theorem State.loaded_eq (s : State) (r : Slot) (m : MemOperand) (n : Word) :
    s.loaded r m n = { s.afterRead (m.address s) with regs := (s.loaded r m n).regs, pc := s.pc + n } := by
  rw [← s.afterRead_pc (m.address s), State.loaded, MemOperand.post_eq, State.setSlot_eq]
  rfl

/-- The slot a load writes, which its operand does not move, holds the byte read. -/
theorem State.slot_loaded_self (s : State) {r : Slot} {m : MemOperand} (hr : r ≠ .f) (h : r ∉ m.moved) (n : Word) :
    (s.loaded r m n).slot r = s.readValue (m.address s) := by
  rw [State.loaded, m.slot_post _ _ h, State.slot_setSlot_self, if_neg hr]

/-- Every other slot its operand does not move, a load leaves. -/
theorem State.slot_loaded_ne (s : State) {r q : Slot} {m : MemOperand} (hq : q ≠ r) (h : q ∉ m.moved) (n : Word) :
    (s.loaded r m n).slot q = s.slot q := by
  rw [State.loaded, m.slot_post _ _ h, State.slot_setSlot_ne _ hq, State.slot_advance, State.slot_afterRead]

/-- What a load that leaves HL does when its address is mapped. -/
theorem exec_load_result {i : Instr} (m : MemOperand) {r : Slot} (hbody : bodyOf i = loadSlot r m) (hr : r ≠ .f)
    (hmoved : m.moved = []) (s : State) (hm : s.mapped (m.address s) = true) :
    ∃ t, exec i s = .next t ∧
      t = { s.afterRead (m.address s) with regs := t.regs, pc := s.pc + BitVec.ofNat 16 i.length } ∧
      t.slot r = s.readValue (m.address s) ∧ ∀ q, q ≠ r → t.slot q = s.slot q := by
  have hnone : ∀ q, q ∉ m.moved := fun q => hmoved ▸ List.not_mem_nil
  exact ⟨_, exec_loaded hbody hm, s.loaded_eq r m _, s.slot_loaded_self hr (hnone r) _,
    fun q hq => s.slot_loaded_ne hq (hnone q) _⟩

/-- Settles O27: each listed load comes with its slot, its operand's address and its length. -/
theorem loadResult : Obligations.LoadResult := by
  unfold Obligations.LoadResult
  intro s o x hx
  simp only [List.mem_cons, List.not_mem_nil, or_false] at hx
  rcases hx with rfl | rfl | rfl | rfl | rfl | rfl | rfl | rfl | rfl | rfl | rfl
  · exact exec_load_result .bc rfl (by nofun) rfl s
  · exact exec_load_result .de rfl (by nofun) rfl s
  iterate 7 exact exec_load_result .hl rfl (by nofun) rfl s
  · exact exec_load_result (.ioImm o) rfl (by nofun) rfl s
  · exact exec_load_result .ioC rfl (by nofun) rfl s

/-- What a load of A that moves HL leaves: `v` is the operand's new value of HL. -/
theorem exec_load_moveHl {i : Instr} (m : MemOperand) {v : Word} (hbody : bodyOf i = loadSlot .a m)
    (hmoved : m.moved = [.h, .l]) {s : State} (hpost : ∀ u, m.post (m.address s) u = u.setPair .hl v)
    (hm : s.mapped (m.address s) = true) :
    ∃ t, exec i s = .next t ∧
      t = { s.afterRead (m.address s) with regs := t.regs, pc := s.pc + BitVec.ofNat 16 i.length } ∧
      t.slot .a = s.readValue (m.address s) ∧ t.pair .hl = v ∧
      ∀ q, q ≠ .a → q ≠ .h → q ≠ .l → t.slot q = s.slot q := by
  refine ⟨_, exec_loaded hbody hm, s.loaded_eq .a m _, s.slot_loaded_self (by decide) (by simp [hmoved]) _, ?_,
    fun q ha hh hl => ?_⟩
  · rw [State.loaded, hpost, State.pair_setPair_hl]
  · exact s.slot_loaded_ne ha (by simp [hmoved, hh, hl]) _

/-- Settles O28: the load is from the old HL, and HL moves from it after A is written. -/
theorem loadThenMoveHl : Obligations.LoadThenMoveHl := by
  unfold Obligations.LoadThenMoveHl
  intro s x hx
  simp only [List.mem_cons, List.not_mem_nil, or_false] at hx
  rcases hx with rfl | rfl
  · exact exec_load_moveHl .hlInc rfl rfl fun _ => rfl
  · exact exec_load_moveHl .hlDec rfl rfl fun _ => rfl

end Sys2Proof.Machine

/-! PROOFS of the statements on 41_jumps_calls.md. Jumps. -/

namespace Sys2Proof.Machine

/-! ## Relative and absolute jumps (41_jumps_calls.md R140 to R150) -/

/-- A condition reads the flags alone. -/
theorem Cond.holds_advance (k : Cond) (s : State) (n : Word) : k.holds (s.advance n) = k.holds s := by
  cases k <;> rfl

/-- The target of a relative jump of two bytes: the signed offset counts from the address after them (R141). -/
theorem relative_target (a : Word) (o : Byte) : a + 2 + sext16 o = BitVec.ofInt 16 (a.toNat + 2 + o.toInt) := by
  rw [BitVec.ofInt_add, BitVec.ofInt_add, BitVec.ofInt_natCast, BitVec.ofNat_toNat, BitVec.setWidth_eq]
  rfl

/-- A relative jump writes PC alone. -/
theorem exec_jumpRelative {i : Instr} {k : Cond} {o : Byte} (hbody : bodyOf i = jumpRelative k o) (hlen : i.length = 2)
    (s : State) :
    exec i s = .next { s with pc := if k.holds s then BitVec.ofInt 16 (s.pc.toNat + 2 + o.toInt) else s.pc + 2 } := by
  refine exec_next ?_
  rw [hbody, hlen, jumpRelative, Cond.holds_advance, ← relative_target]
  cases k.holds s <;> rfl

/-- Settles O30: each listed jump comes with its condition. -/
theorem relativeJumps : Obligations.RelativeJumps := by
  unfold Obligations.RelativeJumps
  intro s o x hx
  simp only [List.mem_cons, List.not_mem_nil, or_false] at hx
  rcases hx with rfl | rfl | rfl | rfl | rfl
  · exact exec_jumpRelative (k := .always) rfl rfl s
  · exact exec_jumpRelative (k := .nz) rfl rfl s
  · exact exec_jumpRelative (k := .z) rfl rfl s
  · exact exec_jumpRelative (k := .nc) rfl rfl s
  · exact exec_jumpRelative (k := .c) rfl rfl s

/-- An absolute jump writes PC alone. -/
theorem exec_jumpAbsolute {i : Instr} {k : Cond} {t : Word} (hbody : bodyOf i = jumpAbsolute k t) (hlen : i.length = 3)
    (s : State) : exec i s = .next { s with pc := if k.holds s then t else s.pc + 3 } := by
  refine exec_next ?_
  rw [hbody, hlen, jumpAbsolute, Cond.holds_advance]
  cases k.holds s <;> rfl

/-- Settles O31: each listed jump comes with its condition. -/
theorem absoluteJumps : Obligations.AbsoluteJumps := by
  unfold Obligations.AbsoluteJumps
  intro s t x hx
  simp only [List.mem_cons, List.not_mem_nil, or_false] at hx
  rcases hx with rfl | rfl | rfl | rfl | rfl
  · exact exec_jumpAbsolute (k := .always) rfl rfl s
  · exact exec_jumpAbsolute (k := .nz) rfl rfl s
  · exact exec_jumpAbsolute (k := .z) rfl rfl s
  · exact exec_jumpAbsolute (k := .nc) rfl rfl s
  · exact exec_jumpAbsolute (k := .c) rfl rfl s

end Sys2Proof.Machine

/-! PROOFS of the statements on 41_jumps_calls.md. Calls, returns and the stack. -/

namespace Sys2Proof.Machine

/-! ## Instructions that push (41_jumps_calls.md R151, 42_stack.md R160, R163 to R166) -/

/-- The state a completing push leaves: the low byte stored at sp-1, then the high byte at sp, and SP two less (R160). -/
def State.pushed (s : State) (v : Word) : State :=
  ((s.store (s.sp - 1) (loByte v)).store s.sp (hiByte v)).setSp (s.sp - 2)

/-- The low byte stays at sp-1 when the high byte is stored after it, unless the arbitrary collaborator took it. -/
theorem State.peek_pushed_lo {s : State} (hd : s.delegated (s.sp - 1) = false) (v : Word) :
    (s.pushed v).peek (s.sp - 1) = loByte v :=
  (State.peek_store_ne _ (mt sub_eq_self.1 (by decide)) _).trans (State.peek_store_self hd _)

/-- The high byte is at sp, unless the arbitrary collaborator took it. -/
theorem State.peek_pushed_hi {s : State} (hd : s.delegated s.sp = false) (v : Word) :
    (s.pushed v).peek s.sp = hiByte v :=
  State.peek_store_self ((s.delegated_store _ _ _).trans hd) _

/-- A push leaves every byte but the two. -/
theorem State.peek_pushed_ne {s : State} {b : Word} (hlo : b ≠ s.sp - 1) (hhi : b ≠ s.sp) (v : Word) :
    (s.pushed v).peek b = s.peek b :=
  (State.peek_store_ne _ hhi _).trans (State.peek_store_ne _ hlo _)

/-- Where no arbitrary collaborator answers, a push changes SP and the memory alone. -/
theorem State.pushed_of_not_delegated {s : State} (hlo : s.delegated (s.sp - 1) = false) (hhi : s.delegated s.sp = false)
    (v : Word) : s.pushed v = { s with sp := s.sp - 2, mem := (s.pushed v).mem } := by
  rw [State.pushed, State.store_of_not_delegated ((s.delegated_store _ _ _).trans hhi), State.store_of_not_delegated hlo]
  rfl

/-- A push of writable bytes completes, PC already past the instruction that pushes: it does not look at PC. -/
theorem push_advance_ok {s : State} (hlo : s.writable (s.sp - 1) = true) (hhi : s.writable s.sp = true) (v n : Word) :
    push v (s.advance n) = .ok () ((s.pushed v).advance n) := by
  rw [push_ok (by simpa using hlo) (by simpa using hhi), State.advance_sp, State.store_advance, State.store_advance]
  rfl

theorem push_advance_raise_first {s : State} (hlo : s.writable (s.sp - 1) = false) (v n : Word) :
    push v (s.advance n) = .raise (s.writeFault (s.sp - 1)) (s.advance n) := by
  rw [push_raise_first (by simpa using hlo), State.advance_sp, State.writeFault_congr (State.advance_config s n)]

theorem push_advance_raise_second {s : State} (hlo : s.writable (s.sp - 1) = true) (hhi : s.writable s.sp = false)
    (v n : Word) :
    push v (s.advance n) = .raise (s.writeFault s.sp) ((s.store (s.sp - 1) (loByte v)).advance n) := by
  rw [push_raise_second (by simpa using hlo) (by simpa using hhi), State.advance_sp, State.store_advance,
    State.writeFault_congr (State.advance_config s n)]

/-- The sub-steps of `i` from `s` push `v` and then leave PC at `t`: CALL and PUSH alike. -/
def PushesFrom (i : Instr) (s : State) (v t : Word) : Prop :=
  bodyOf i (s.advance (BitVec.ofNat 16 i.length)) =
    (push v (s.advance (BitVec.ofNat 16 i.length))).bind fun _ u => .ok () (u.setPc t)

/-- CALL pushes the address after it and goes to its immediate (R151). -/
theorem call_pushesFrom (s : State) (a : Word) : PushesFrom (.call a) s (s.pc + 3) a := rfl

/-- A PUSH pushes its pair, and a push leaves PC past the instruction (R163 to R166). -/
theorem pushPair_pushesFrom {i : Instr} (p : Pair) (hbody : bodyOf i = pushPair p) (s : State) :
    PushesFrom i s (s.pair p) (s.pc + BitVec.ofNat 16 i.length) := by
  have hpc := push_preserves (g := State.pc) (v := s.pair p) (s := s.advance (BitVec.ofNat 16 i.length))
    (fun _ _ _ _ => State.store_pc _ _ _) (fun _ _ => rfl)
  rw [PushesFrom, hbody, pushPair, State.pair_advance]
  rw [State.advance_pc] at hpc
  cases hpush : push (s.pair p) (s.advance (BitVec.ofNat 16 i.length)) with
  | ok _ u =>
    rw [hpush, Result.state_ok] at hpc
    rw [Result.bind_ok, ← hpc]
    rfl
  | raise k u => rfl

/-- An instruction that pushes completes where both bytes are writable. -/
theorem exec_pushed {i : Instr} {s : State} {v t : Word} (h : PushesFrom i s v t) (hlo : s.writable (s.sp - 1) = true)
    (hhi : s.writable s.sp = true) : exec i s = .next ((s.pushed v).setPc t) := by
  refine exec_next ?_
  rw [h, push_advance_ok hlo hhi, Result.bind_ok]
  rfl

/-- What an instruction that pushes does when both bytes are writable. -/
theorem exec_push_result {i : Instr} {s : State} {v t : Word} (h : PushesFrom i s v t)
    (hlo : s.writable (s.sp - 1) = true) (hhi : s.writable s.sp = true) :
    ∃ u, exec i s = .next u ∧
      u = { (s.store (s.sp - 1) (loByte v)).store s.sp (hiByte v) with sp := s.sp - 2, pc := t } ∧
      (s.delegated (s.sp - 1) = false → u.peek (s.sp - 1) = loByte v) ∧
      (s.delegated s.sp = false → u.peek s.sp = hiByte v) ∧ ∀ b, b ≠ s.sp - 1 → b ≠ s.sp → u.peek b = s.peek b :=
  ⟨_, exec_pushed h hlo hhi, rfl, fun hd => State.peek_pushed_lo hd v, fun hd => State.peek_pushed_hi hd v,
    fun _ hblo hbhi => State.peek_pushed_ne hblo hbhi v⟩

/-- Settles O32: each listed instruction comes with the word it pushes and with where it goes. -/
theorem stackWrites : Obligations.StackWrites := by
  unfold Obligations.StackWrites
  intro s a x hx
  simp only [List.mem_cons, List.not_mem_nil, or_false] at hx
  rcases hx with rfl | rfl | rfl | rfl | rfl
  · exact exec_push_result (call_pushesFrom s a)
  · exact exec_push_result (pushPair_pushesFrom .bc rfl s)
  · exact exec_push_result (pushPair_pushesFrom .de rfl s)
  · exact exec_push_result (pushPair_pushesFrom .hl rfl s)
  · exact exec_push_result (pushPair_pushesFrom .af rfl s)

/-- An instruction whose later sub-step raises, PC not moved since its own bytes, leaves what the earlier ones left and PC
past those bytes. -/
theorem exec_faultedAt_of_pc {i : Instr} {s u : State} {k : FaultKind}
    (h : bodyOf i (s.advance (BitVec.ofNat 16 i.length)) = .raise k (u.advance (BitVec.ofNat 16 i.length)))
    (hpc : u.pc = s.pc) : exec i s = .next (u.faultedAt (BitVec.ofNat 16 i.length) k) := by
  rw [exec_final, h, Result.final_raise, ← hpc]
  rfl

/-- Both faults of an instruction that pushes: at sp-1 nothing is stored, at sp the low byte stays stored (60_exceptions.md
R303). -/
theorem exec_push_faults {i : Instr} {s : State} {v t : Word} (h : PushesFrom i s v t) :
    (s.writable (s.sp - 1) = false →
      exec i s = .next (s.faultedAt (BitVec.ofNat 16 i.length) (s.writeFault (s.sp - 1)))) ∧
    (s.writable (s.sp - 1) = true → s.writable s.sp = false →
      exec i s = .next ((s.store (s.sp - 1) (loByte v)).faultedAt (BitVec.ofNat 16 i.length) (s.writeFault s.sp))) := by
  refine ⟨fun hlo => exec_faultedAt ?_, fun hlo hhi => exec_faultedAt_of_pc ?_ (State.store_pc _ _ _)⟩
  · rw [h, push_advance_raise_first hlo, Result.bind_raise]
  · rw [h, push_advance_raise_second hlo hhi, Result.bind_raise]

/-- Settles O33: each listed instruction comes with the word it pushes and with its length. -/
theorem stackWriteFaults : Obligations.StackWriteFaults := by
  unfold Obligations.StackWriteFaults
  intro s a x hx
  simp only [List.mem_cons, List.not_mem_nil, or_false] at hx
  rcases hx with rfl | rfl | rfl | rfl | rfl
  · exact exec_push_faults (call_pushesFrom s a)
  · exact exec_push_faults (pushPair_pushesFrom .bc rfl s)
  · exact exec_push_faults (pushPair_pushesFrom .de rfl s)
  · exact exec_push_faults (pushPair_pushesFrom .hl rfl s)
  · exact exec_push_faults (pushPair_pushesFrom .af rfl s)

/-! ## Instructions that pop (41_jumps_calls.md R152, 42_stack.md R161, R167 to R170) -/

/-- The word a completing pop answers: the byte at sp+1 is its low byte, the byte at sp+2 its high byte (R161). -/
def State.popValue (s : State) : Word :=
  cat ((s.afterRead (s.sp + 1)).readValue (s.sp + 2)) (s.readValue (s.sp + 1))

/-- The state a completing pop leaves: both bytes read, and SP two more (R161). -/
def State.popped (s : State) : State := ((s.afterRead (s.sp + 1)).afterRead (s.sp + 2)).setSp (s.sp + 2)

/-- A pop of mapped bytes completes, PC already past the instruction that pops: it does not look at PC. -/
theorem pop_advance_ok {s : State} (hlo : s.mapped (s.sp + 1) = true) (hhi : s.mapped (s.sp + 2) = true) (n : Word) :
    pop (s.advance n) = .ok s.popValue (s.popped.advance n) := by
  rw [pop_ok (by simpa using hlo) (by simpa using hhi), State.advance_sp]
  simp only [State.afterRead_advance, State.readValue_advance]
  rfl

theorem pop_advance_raise_first {s : State} (hlo : s.mapped (s.sp + 1) = false) (n : Word) :
    pop (s.advance n) = .raise (.unmappedAddress (s.sp + 1)) (s.advance n) := by
  rw [pop_raise_first (by simpa using hlo), State.advance_sp]

theorem pop_advance_raise_second {s : State} (hlo : s.mapped (s.sp + 1) = true) (hhi : s.mapped (s.sp + 2) = false)
    (n : Word) :
    pop (s.advance n) = .raise (.unmappedAddress (s.sp + 2)) ((s.afterRead (s.sp + 1)).advance n) := by
  rw [pop_raise_second (by simpa using hlo) (by simpa using hhi), State.advance_sp, State.afterRead_advance]

/-- RET completes where both stack bytes are mapped: it goes to the word popped. -/
theorem exec_ret {s : State} (hlo : s.mapped (s.sp + 1) = true) (hhi : s.mapped (s.sp + 2) = true) :
    exec .ret s = .next (s.popped.setPc s.popValue) := by
  refine exec_next ?_
  rw [bodyOf, returnToCaller, pop_advance_ok hlo hhi, Result.bind_ok]
  rfl

/-- Settles O34: PC is the word popped, low byte first. -/
theorem returnResult : Obligations.ReturnResult := by
  unfold Obligations.ReturnResult
  exact fun s hlo hhi => ⟨_, exec_ret hlo hhi, rfl, cat_toNat _ _⟩

/-- Both faults of an instruction whose sub-steps begin with a pop: SP and what `k` writes are as they were (60_exceptions.md
R303). -/
theorem exec_pop_faults {i : Instr} {k : Word → State → Result Unit} (hbody : ∀ u, bodyOf i u = (pop u).bind k)
    (s : State) :
    (s.mapped (s.sp + 1) = false →
      exec i s = .next (s.faultedAt (BitVec.ofNat 16 i.length) (.unmappedAddress (s.sp + 1)))) ∧
    (s.mapped (s.sp + 1) = true → s.mapped (s.sp + 2) = false →
      exec i s = .next ((s.afterRead (s.sp + 1)).faultedAt (BitVec.ofNat 16 i.length) (.unmappedAddress (s.sp + 2)))) := by
  refine ⟨fun hlo => exec_faultedAt ?_, fun hlo hhi => exec_faultedAt_of_pc ?_ (State.afterRead_pc _ _)⟩
  · rw [hbody, pop_advance_raise_first hlo, Result.bind_raise]
  · rw [hbody, pop_advance_raise_second hlo hhi, Result.bind_raise]

/-- Settles O36: RET and each POP begin with a pop. -/
theorem stackReadFaults : Obligations.StackReadFaults := by
  unfold Obligations.StackReadFaults
  intro s i hi
  simp only [List.mem_cons, List.not_mem_nil, or_false] at hi
  rcases hi with rfl | rfl | rfl | rfl | rfl <;> exact exec_pop_faults (fun _ => rfl) s

/-! ## A call and then a return (42_stack.md R162) -/

/-- Where no arbitrary collaborator answers, a pop answers the two stored bytes. -/
theorem State.popValue_of_not_delegated {s : State} (hlo : s.delegated (s.sp + 1) = false)
    (hhi : s.delegated (s.sp + 2) = false) : s.popValue = cat (s.peek (s.sp + 2)) (s.peek (s.sp + 1)) := by
  rw [State.popValue, State.afterRead_of_not_delegated hlo, State.readValue_of_not_delegated hlo,
    State.readValue_of_not_delegated hhi]

/-- Where no arbitrary collaborator answers, a pop changes SP alone. -/
theorem State.popped_of_not_delegated {s : State} (hlo : s.delegated (s.sp + 1) = false)
    (hhi : s.delegated (s.sp + 2) = false) : s.popped = s.setSp (s.sp + 2) := by
  rw [State.popped, State.afterRead_of_not_delegated hlo, State.afterRead_of_not_delegated hhi]

/-- RET where the stack bytes hold the word `v` goes to `v`. -/
theorem exec_ret_of_peek {s : State} {v : Word} (hmlo : s.mapped (s.sp + 1) = true) (hmhi : s.mapped (s.sp + 2) = true)
    (hdlo : s.delegated (s.sp + 1) = false) (hdhi : s.delegated (s.sp + 2) = false)
    (hlo : s.peek (s.sp + 1) = loByte v) (hhi : s.peek (s.sp + 2) = hiByte v) :
    exec .ret s = .next { s with sp := s.sp + 2, pc := v } := by
  rw [exec_ret hmlo hmhi, State.popped_of_not_delegated hdlo hdhi, State.popValue_of_not_delegated hdlo hdhi, hlo, hhi,
    cat_hiByte_loByte]
  rfl

/-- After SP is two less, sp+1 is where the push stored its low byte. -/
theorem sub_two_add_one (a : Word) : a - 2 + 1 = a - 1 := by bv_omega

theorem State.pushed_config (s : State) (v : Word) : (s.pushed v).config = s.config := by
  simp [State.pushed]

/-- RET after a push, with only PC moved in between, goes to the word pushed: sp+1 and sp+2 are the two addresses the push
stored it at, and SP is as before the push. -/
theorem exec_ret_pushed {s : State} (hwlo : s.writable (s.sp - 1) = true) (hwhi : s.writable s.sp = true)
    (hdlo : s.delegated (s.sp - 1) = false) (hdhi : s.delegated s.sp = false) (v b : Word) :
    exec .ret ((s.pushed v).setPc b) = .next { s with pc := v, mem := (s.pushed v).mem } := by
  have hlo : ((s.pushed v).setPc b).sp + 1 = s.sp - 1 := sub_two_add_one s.sp
  have hhi : ((s.pushed v).setPc b).sp + 2 = s.sp := sub_add_cancel s.sp 2
  have hconfig : ((s.pushed v).setPc b).config = s.config := s.pushed_config v
  rw [exec_ret_of_peek (v := v), hhi, State.pushed_of_not_delegated hdlo hdhi]
  · rfl
  · rw [hlo, State.mapped_congr hconfig, mapped_of_writable hwlo]
  · rw [hhi, State.mapped_congr hconfig, mapped_of_writable hwhi]
  · rw [hlo, State.delegated_congr hconfig, hdlo]
  · rw [hhi, State.delegated_congr hconfig, hdhi]
  · rw [hlo]; exact State.peek_pushed_lo hdlo v
  · rw [hhi]; exact State.peek_pushed_hi hdhi v

/-- Settles O37: the call pushes the address after it, and the return pops what a push stored. -/
theorem callThenReturn : Obligations.CallThenReturn := by
  unfold Obligations.CallThenReturn
  exact fun s a hwlo hwhi hdlo hdhi =>
    ⟨_, exec_pushed (call_pushesFrom s a) hwlo hwhi, rfl, exec_ret_pushed hwlo hwhi hdlo hdhi _⟩

end Sys2Proof.Machine

/-! PROOFS of the statements on 42_stack.md. Push, pop and the POP instructions. -/

namespace Sys2Proof.Machine

/-! ## SP moves after the word access (42_stack.md R160, R161) -/

theorem writeWord_sp (a v : Word) (s : State) : (writeWord a v s).state.sp = s.sp :=
  writeWord_preserves (g := State.sp) fun u x w _ => State.store_sp u x w

theorem readWord_sp (a : Word) (s : State) : (readWord a s).state.sp = s.sp :=
  readWord_preserves (g := State.sp) State.afterRead_sp a s

/-- A push whose word write completes subtracts 2 from the SP it began with: the write leaves SP. -/
theorem push_of_writeWord_ok {s t : State} {v : Word} (h : writeWord (s.sp - 1) v s = .ok () t) :
    push v s = .ok () { t with sp := s.sp - 2 } := by
  have hsp := writeWord_sp (s.sp - 1) v s
  rw [h, Result.state_ok] at hsp
  rw [push, h, Result.bind_ok, hsp]
  rfl

/-- A push whose word write raises raises the same. -/
theorem push_of_writeWord_raise {s t : State} {v : Word} {k : FaultKind} (h : writeWord (s.sp - 1) v s = .raise k t) :
    push v s = .raise k t := by
  rw [push, h, Result.bind_raise]

/-- A pop whose word read completes answers that word and adds 2 to the SP it began with: the read leaves SP. -/
theorem pop_of_readWord_ok {s t : State} {w : Word} (h : readWord (s.sp + 1) s = .ok w t) :
    pop s = .ok w { t with sp := s.sp + 2 } := by
  have hsp := readWord_sp (s.sp + 1) s
  rw [h, Result.state_ok] at hsp
  rw [pop, h, Result.bind_ok, hsp]
  rfl

/-- A pop whose word read raises raises the same. -/
theorem pop_of_readWord_raise {s t : State} {k : FaultKind} (h : readWord (s.sp + 1) s = .raise k t) :
    pop s = .raise k t := by
  rw [pop, h, Result.bind_raise]

/-- Settles O16: the word access leaves SP, so SP moves by 2 exactly when the access completes. -/
theorem stackConvention : Obligations.StackConvention := by
  unfold Obligations.StackConvention
  refine fun s v => ⟨fun t => push_of_writeWord_ok, fun k t h => ?_, fun hlo hhi => push_ok hlo hhi v,
    fun w t => pop_of_readWord_ok, fun k t h => ?_, fun hlo hhi => ⟨_, pop_ok hlo hhi, rfl⟩⟩
  · have hpush := push_of_writeWord_raise h
    exact ⟨hpush, push_raise_preserves State.store_sp hpush⟩
  · have hpop := pop_of_readWord_raise h
    exact ⟨hpop, pop_raise_preserves State.afterRead_sp hpop⟩

/-! ## A push and then a pop (42_stack.md R162) -/

/-- A pop where the stack bytes hold the word `v` answers `v`, and changes SP alone. -/
theorem pop_of_peek {s : State} {v : Word} (hmlo : s.mapped (s.sp + 1) = true) (hmhi : s.mapped (s.sp + 2) = true)
    (hdlo : s.delegated (s.sp + 1) = false) (hdhi : s.delegated (s.sp + 2) = false)
    (hlo : s.peek (s.sp + 1) = loByte v) (hhi : s.peek (s.sp + 2) = hiByte v) :
    pop s = .ok v (s.setSp (s.sp + 2)) := by
  have hpop : pop s = .ok s.popValue s.popped := pop_ok hmlo hmhi
  rw [hpop, State.popped_of_not_delegated hdlo hdhi, State.popValue_of_not_delegated hdlo hdhi, hlo, hhi, cat_hiByte_loByte]

/-- A pop right after a push answers the word pushed and restores SP: sp+1 and sp+2 are the two addresses the push stored
it at. -/
theorem pop_pushed {s : State} (hwlo : s.writable (s.sp - 1) = true) (hwhi : s.writable s.sp = true)
    (hdlo : s.delegated (s.sp - 1) = false) (hdhi : s.delegated s.sp = false) (v : Word) :
    pop (s.pushed v) = .ok v ((s.pushed v).setSp s.sp) := by
  have hlo : (s.pushed v).sp + 1 = s.sp - 1 := sub_two_add_one s.sp
  have hhi : (s.pushed v).sp + 2 = s.sp := sub_add_cancel s.sp 2
  have hconfig : (s.pushed v).config = s.config := s.pushed_config v
  rw [pop_of_peek (v := v), hhi]
  · rw [hlo, State.mapped_congr hconfig, mapped_of_writable hwlo]
  · rw [hhi, State.mapped_congr hconfig, mapped_of_writable hwhi]
  · rw [hlo, State.delegated_congr hconfig, hdlo]
  · rw [hhi, State.delegated_congr hconfig, hdhi]
  · rw [hlo, State.peek_pushed_lo hdlo]
  · rw [hhi, State.peek_pushed_hi hdhi]

/-- Settles O17: the push completes, and the pop finds both its bytes. -/
theorem pushPopInverse : Obligations.PushPopInverse := by
  unfold Obligations.PushPopInverse
  exact fun s v hwlo hwhi hdlo hdhi => ⟨s.pushed v, push_ok hwlo hwhi v, pop_pushed hwlo hwhi hdlo hdhi v⟩

/-! ## The POP instructions (42_stack.md R167 to R170) -/

/-- F is the low slot of AF alone. -/
theorem Pair.lo_eq_f_iff {p : Pair} : p.lo = .f ↔ p = .af := by cases p <;> decide

/-- No flag is among bits 3..0 of F, which a write drops (10_state.md R26). -/
theorem Flag.getLsbD_mask (f : Flag) : (0xF0 : Byte).getLsbD f.bit = true := by cases f <;> rfl

/-- A pair write, read at any flag: AF loads all four from the low byte, and the other pairs leave them. -/
theorem State.flag_setPair (s : State) (p : Pair) (v : Word) (f : Flag) :
    (s.setPair p v).flag f = if p = .af then (loByte v).getLsbD f.bit else s.flag f := by
  by_cases hp : p = .af
  · subst hp
    have hslot : (s.setPair .af v).slot .f = loByte v &&& 0xF0 := s.slot_setPair_lo .af v
    rw [State.flag, hslot, BitVec.getLsbD_and, Flag.getLsbD_mask, Bool.and_true, if_pos rfl]
  · rw [State.flag_setPair_ne s hp, if_neg hp]

/-- POP completes where both stack bytes are mapped: it writes the word popped to its pair. -/
theorem exec_popPair {i : Instr} {p : Pair} (hbody : bodyOf i = popPair p) {s : State}
    (hlo : s.mapped (s.sp + 1) = true) (hhi : s.mapped (s.sp + 2) = true) :
    exec i s = .next ((s.popped.advance (BitVec.ofNat 16 i.length)).setPair p s.popValue) := by
  refine exec_next ?_
  rw [hbody, popPair, pop_advance_ok hlo hhi, Result.bind_ok]

theorem State.popped_regs (s : State) : s.popped.regs = s.regs := by simp [State.popped]

theorem State.popped_pc (s : State) : s.popped.pc = s.pc := by simp [State.popped]

/-- What a POP does when both stack bytes are mapped: its high slot is the byte at sp+2, its low slot the byte at sp+1. -/
theorem exec_pop_result {i : Instr} (p : Pair) (hbody : bodyOf i = popPair p) {s : State}
    (hlo : s.mapped (s.sp + 1) = true) (hhi : s.mapped (s.sp + 2) = true) :
    ∃ t, exec i s = .next t ∧
      t = { (s.afterRead (s.sp + 1)).afterRead (s.sp + 2) with
        regs := t.regs, sp := s.sp + 2, pc := s.pc + BitVec.ofNat 16 i.length } ∧
      t.slot p.hi = (s.afterRead (s.sp + 1)).readValue (s.sp + 2) ∧
      t.slot p.lo = (if p.lo = .f then s.readValue (s.sp + 1) &&& 0xF0 else s.readValue (s.sp + 1)) ∧
      (∀ q, q ≠ p.hi → q ≠ p.lo → t.slot q = s.slot q) ∧
      ∀ f, t.flag f = if p.lo = .f then (s.readValue (s.sp + 1)).getLsbD f.bit else s.flag f := by
  have hlow : loByte s.popValue = s.readValue (s.sp + 1) := loByte_cat _ _
  have hhigh : hiByte s.popValue = (s.afterRead (s.sp + 1)).readValue (s.sp + 2) := hiByte_cat _ _
  simp only [Pair.lo_eq_f_iff]
  refine ⟨_, exec_popPair hbody hlo hhi, ?_, ?_, ?_, fun q hqhi hqlo => ?_, fun f => ?_⟩
  · rw [State.setPair_eq, ← s.popped_pc]
    rfl
  · rw [State.slot_setPair_hi, hhigh]
  · rw [State.slot_setPair_lo, hlow]
  · rw [State.slot_setPair_ne _ p _ hqhi hqlo, State.slot_advance, State.slot_congr s.popped_regs]
  · rw [State.flag_setPair, hlow, State.flag_advance, State.flag_congr s.popped_regs]

/-- Settles O35: each listed instruction comes with the high and the low slot of its pair. -/
theorem popResult : Obligations.PopResult := by
  unfold Obligations.PopResult
  intro s x hx
  simp only [List.mem_cons, List.not_mem_nil, or_false] at hx
  rcases hx with rfl | rfl | rfl | rfl
  · exact exec_pop_result .bc rfl
  · exact exec_pop_result .de rfl
  · exact exec_pop_result .hl rfl
  · exact exec_pop_result .af rfl

end Sys2Proof.Machine

/-! PROOFS of the statements on 43_arithmetic.md. Reads that fault. -/

namespace Sys2Proof.Machine

/-! ## Data reads at unmapped addresses (40_loads.md R116 to R126, 43_arithmetic.md R174, 60_exceptions.md R303) -/

/-- A load instruction from an unmapped address leaves its slot and HL as they were. -/
theorem exec_load_faultedAt {i : Instr} (m : MemOperand) {r : Slot} (hbody : bodyOf i = loadSlot r m) {s : State}
    (hm : s.mapped (m.address s) = false) :
    exec i s = .next (s.faultedAt (BitVec.ofNat 16 i.length) (.unmappedAddress (m.address s))) := by
  refine exec_faultedAt ?_
  rw [hbody, loadSlot_raise r (by rw [MemOperand.address_advance, State.mapped_advance, hm]), MemOperand.address_advance]

/-- The source of SUB, XOR and CP is read before A or F is written, so an unmapped (HL) leaves both. -/
theorem exec_source_faultedAt {i : Instr} {x : Source} {k : Byte → State → Result Unit}
    (hbody : ∀ u, bodyOf i u = (x.read u).bind k) {s : State} (hx : x.readable s = false) :
    exec i s = .next (s.faultedAt (BitVec.ofNat 16 i.length) (.unmappedAddress (s.pair .hl))) := by
  refine exec_faultedAt ?_
  rw [hbody, Source.read_raise (by rw [Source.readable_advance, hx]), Result.bind_raise, State.pair_advance]

/-- Settles O29: each listed load comes with its operand's address and its length, and the three sources are (HL). -/
theorem readFaults : Obligations.ReadFaults := by
  unfold Obligations.ReadFaults
  intro s o x hx
  simp only [List.mem_cons, List.not_mem_nil, or_false] at hx
  rcases hx with rfl | rfl | rfl | rfl | rfl | rfl | rfl | rfl | rfl | rfl | rfl | rfl | rfl | rfl | rfl | rfl
  · exact exec_load_faultedAt .bc rfl
  · exact exec_load_faultedAt .de rfl
  · exact exec_load_faultedAt .hlInc rfl
  · exact exec_load_faultedAt .hlDec rfl
  iterate 7 exact exec_load_faultedAt .hl rfl
  · exact exec_load_faultedAt (.ioImm o) rfl
  · exact exec_load_faultedAt .ioC rfl
  iterate 3 exact exec_source_faultedAt (x := .memHl) fun _ => rfl

end Sys2Proof.Machine

/-! PROOFS of the statements on 43_arithmetic.md. Increments and decrements. -/

namespace Sys2Proof.Machine

/-! ## Updates of the register file alone -/

/-- The state `t` is `s` with another register file. -/
def State.RegsAlone (s t : State) : Prop := t = { s with regs := t.regs }

theorem State.RegsAlone.refl (s : State) : s.RegsAlone s := rfl

theorem State.RegsAlone.setSlot {s t : State} (h : s.RegsAlone t) (r : Slot) (v : Byte) : s.RegsAlone (t.setSlot r v) :=
  (t.setSlot_eq r v).trans (congrArg (fun u : State => { u with regs := (t.setSlot r v).regs }) h)

theorem State.RegsAlone.setFlag {s t : State} (h : s.RegsAlone t) (f : Flag) (on : Bool) : s.RegsAlone (t.setFlag f on) :=
  h.setSlot .f _

theorem State.RegsAlone.setPair {s t : State} (h : s.RegsAlone t) (p : Pair) (v : Word) : s.RegsAlone (t.setPair p v) :=
  (h.setSlot p.hi _).setSlot p.lo _

/-! ## 8-bit increment and decrement (43_arithmetic.md R171, R172) -/

/-- The state INC r and DEC r leave: the slot with its result, Z of the result, and N and H. -/
def State.counted (s : State) (r : Slot) (res : Byte) (n half : Bool) : State :=
  (((s.setFlag .z (res == 0)).setFlag .n n).setFlag .h half).setSlot r res

theorem incSlot_eq (r : Slot) (s : State) :
    incSlot r s = .ok () (s.counted r (s.slot r + 1) false ((((s.slot r &&& 0xF) + 1) &&& 0x10) != 0)) := rfl

theorem decSlot_eq (r : Slot) (s : State) :
    decSlot r s = .ok () (s.counted r (s.slot r - 1) true (s.slot r &&& 0xF == 0)) := rfl

theorem State.counted_regsAlone (s : State) (r : Slot) (res : Byte) (n half : Bool) :
    s.RegsAlone (s.counted r res n half) :=
  ((((State.RegsAlone.refl s).setFlag _ _).setFlag _ _).setFlag _ _).setSlot _ _

theorem State.slot_counted_self (s : State) {r : Slot} (hr : r ≠ .f) (res : Byte) (n half : Bool) :
    (s.counted r res n half).slot r = res := by
  rw [State.counted, State.slot_setSlot_self, if_neg hr]

theorem State.slot_counted_ne (s : State) {r q : Slot} (hq : q ≠ r) (hf : q ≠ .f) (res : Byte) (n half : Bool) :
    (s.counted r res n half).slot q = s.slot q := by
  rw [State.counted, State.slot_setSlot_ne _ hq, State.slot_setFlag_ne _ _ _ hf, State.slot_setFlag_ne _ _ _ hf,
    State.slot_setFlag_ne _ _ _ hf]

/-- The flags after INC r and DEC r, C as it was. -/
theorem State.flag_counted (s : State) {r : Slot} (hr : r ≠ .f) (res : Byte) (n half : Bool) (f : Flag) :
    (s.counted r res n half).flag f =
      match f with
      | .z => res == 0
      | .n => n
      | .h => half
      | .c => s.flag .c := by
  rw [State.counted, State.flag_setSlot_ne _ hr]
  cases f <;> simp [State.flag_setFlag]

/-- What an instruction whose sub-steps are one such count does. -/
theorem exec_counted {i : Instr} {r : Slot} {s : State} {res : Byte} {n half : Bool} (hr : r ≠ .f)
    (hbody : ∀ len, bodyOf i (s.advance len) = .ok () ((s.advance len).counted r res n half)) :
    ∃ t, exec i s = .next t ∧ t = { s with regs := t.regs, pc := s.pc + BitVec.ofNat 16 i.length } ∧
      t.slot r = res ∧ (∀ q, q ≠ r → q ≠ .f → t.slot q = s.slot q) ∧
      t.flag .z = (res == 0) ∧ t.flag .n = n ∧ t.flag .h = half ∧ t.flag .c = s.flag .c :=
  ⟨_, exec_next (hbody _), State.counted_regsAlone _ r res n half, State.slot_counted_self _ hr res n half,
    fun _ hq hf => State.slot_counted_ne _ hq hf res n half, State.flag_counted _ hr res n half .z,
    State.flag_counted _ hr res n half .n, State.flag_counted _ hr res n half .h, State.flag_counted _ hr res n half .c⟩

/-- The two forms of the half-carry of an increment (R171). -/
theorem incHalf_iff : ∀ v : Byte, ((((v &&& 0xF) + 1) &&& 0x10) != 0) = true ↔ v &&& 0xF = 0xF := by decide

/-- The two forms of the half-carry of a decrement (R172): the second subtracts over the integers. -/
theorem decHalf_iff : ∀ v : Byte,
    (v &&& 0xF == 0) = true ↔ (BitVec.ofInt 8 ((v &&& 0xF).toNat - 1)) &&& 0x10 ≠ 0 := by decide

/-- What INC r does. -/
theorem exec_inc_result {i : Instr} {r : Slot} (hbody : bodyOf i = incSlot r) (hr : r ≠ .f) (s : State) :
    ∃ t, exec i s = .next t ∧ t = { s with regs := t.regs, pc := s.pc + BitVec.ofNat 16 i.length } ∧
      t.slot r = s.slot r + 1 ∧ (∀ q, q ≠ r → q ≠ .f → t.slot q = s.slot q) ∧
      t.flag .z = (s.slot r + 1 == 0) ∧ t.flag .n = false ∧
      t.flag .h = ((((s.slot r &&& 0xF) + 1) &&& 0x10) != 0) ∧ (t.flag .h = true ↔ s.slot r &&& 0xF = 0xF) ∧
      t.flag .c = s.flag .c := by
  obtain ⟨t, hexec, hregs, hself, hother, hz, hn, hh, hc⟩ := exec_counted (i := i) (s := s) hr fun len => by
    rw [hbody, incSlot_eq, State.slot_advance]
  exact ⟨t, hexec, hregs, hself, hother, hz, hn, hh, hh ▸ incHalf_iff _, hc⟩

/-- What DEC r does. -/
theorem exec_dec_result {i : Instr} {r : Slot} (hbody : bodyOf i = decSlot r) (hr : r ≠ .f) (s : State) :
    ∃ t, exec i s = .next t ∧ t = { s with regs := t.regs, pc := s.pc + BitVec.ofNat 16 i.length } ∧
      t.slot r = s.slot r - 1 ∧ (∀ q, q ≠ r → q ≠ .f → t.slot q = s.slot q) ∧
      t.flag .z = (s.slot r - 1 == 0) ∧ t.flag .n = true ∧ t.flag .h = (s.slot r &&& 0xF == 0) ∧
      (t.flag .h = true ↔ (BitVec.ofInt 8 ((s.slot r &&& 0xF).toNat - 1)) &&& 0x10 ≠ 0) ∧ t.flag .c = s.flag .c := by
  obtain ⟨t, hexec, hregs, hself, hother, hz, hn, hh, hc⟩ := exec_counted (i := i) (s := s) hr fun len => by
    rw [hbody, decSlot_eq, State.slot_advance]
  exact ⟨t, hexec, hregs, hself, hother, hz, hn, hh, hh ▸ decHalf_iff _, hc⟩

/-- Settles O38: each listed instruction comes with its slot. -/
theorem incrementByte : Obligations.IncrementByte := by
  unfold Obligations.IncrementByte
  intro s x hx
  simp only [List.mem_cons, List.not_mem_nil, or_false] at hx
  rcases hx with rfl | rfl | rfl | rfl | rfl | rfl | rfl <;> exact exec_inc_result rfl (by nofun) s

/-- Settles O39: each listed instruction comes with its slot. -/
theorem decrementByte : Obligations.DecrementByte := by
  unfold Obligations.DecrementByte
  intro s x hx
  simp only [List.mem_cons, List.not_mem_nil, or_false] at hx
  rcases hx with rfl | rfl | rfl | rfl | rfl | rfl | rfl <;> exact exec_dec_result rfl (by nofun) s

/-! ## 16-bit increment and decrement (43_arithmetic.md R176) -/

theorem incWord_pair (p : Pair) (s : State) : incWord (.pair p) s = .ok () (s.setPair p (s.pair p + 1)) := rfl

/-- Modulo 2^16, one less is the sum with -1. -/
theorem decWord_pair (p : Pair) (s : State) : decWord (.pair p) s = .ok () (s.setPair p (s.pair p + -1)) := by
  rw [← sub_eq_add_neg]
  rfl

/-- What an instruction that adds `d` to a pair other than AF does. -/
theorem exec_addPair {i : Instr} {p : Pair} {d : Word} {body : State → Result Unit}
    (hadd : ∀ u, body u = .ok () (u.setPair p (u.pair p + d))) (hbody : bodyOf i = body) (hp : p ≠ .af) (s : State) :
    ∃ t, exec i s = .next t ∧ t = { s with regs := t.regs, pc := s.pc + BitVec.ofNat 16 i.length } ∧
      t.pair p = s.pair p + d ∧ (∀ q, q ≠ p.hi → q ≠ p.lo → t.slot q = s.slot q) ∧ ∀ f, t.flag f = s.flag f := by
  refine ⟨_, exec_next (hbody ▸ hadd _), State.setPair_eq _ p _, ?_, fun q hhi hlo => ?_, fun f => ?_⟩
  · rw [State.pair_setPair, if_neg hp, State.pair_advance]
  · rw [State.slot_setPair_ne _ p _ hhi hlo, State.slot_advance]
  · rw [State.flag_setPair_ne _ hp, State.flag_advance]

/-- Settles O40: each listed instruction comes with its pair, and SP is a word of its own. -/
theorem incrementDecrementWord : Obligations.IncrementDecrementWord := by
  unfold Obligations.IncrementDecrementWord
  refine ⟨fun s x hx => ?_, fun s => ⟨exec_next rfl, exec_next rfl⟩⟩
  simp only [List.mem_cons, List.not_mem_nil, or_false] at hx
  rcases hx with rfl | rfl | rfl | rfl | rfl | rfl
  · exact exec_addPair (incWord_pair .bc) rfl (by decide) s
  · exact exec_addPair (incWord_pair .de) rfl (by decide) s
  · exact exec_addPair (incWord_pair .hl) rfl (by decide) s
  · exact exec_addPair (decWord_pair .bc) rfl (by decide) s
  · exact exec_addPair (decWord_pair .de) rfl (by decide) s
  · exact exec_addPair (decWord_pair .hl) rfl (by decide) s

end Sys2Proof.Machine

/-! PROOFS of the statements on 43_arithmetic.md. SUB, XOR and CP. -/

namespace Sys2Proof.Machine

/-! ## Sources that can be read (43_arithmetic.md R174) -/

/-- The state in which the operation on a source that can be read runs: the source read, PC past the instruction. -/
def Source.fetched (x : Source) (s : State) (n : Word) : State := (x.after s).advance n

theorem Source.fetched_slot (x : Source) (s : State) (n : Word) (q : Slot) : (x.fetched s n).slot q = s.slot q := by
  rw [Source.fetched, State.slot_advance, Source.after_slot]

theorem Source.fetched_flag (x : Source) (s : State) (n : Word) (f : Flag) : (x.fetched s n).flag f = s.flag f := by
  rw [Source.fetched, State.flag_advance, Source.after_flag]

/-- Beside the register file, such an operation leaves what the read left, and PC past the instruction. -/
theorem Source.regsAlone_fetched {x : Source} {s t : State} {n : Word} (h : (x.fetched s n).RegsAlone t) :
    t = { x.after s with regs := t.regs, pc := s.pc + n } := by
  rw [← x.after_pc s]
  exact h

/-- An instruction that operates on a source that can be read: the operation gets the source's value. -/
theorem exec_source {i : Instr} {x : Source} {k : Byte → State → State}
    (hbody : ∀ u, bodyOf i u = (x.read u).bind fun v u1 => .ok () (k v u1)) {s : State} (hx : x.readable s = true) :
    exec i s = .next (k (x.value s) (x.fetched s (BitVec.ofNat 16 i.length))) := by
  refine exec_next ?_
  rw [hbody, Source.read_ok (by rw [Source.readable_advance, hx]), Result.bind_ok, Source.value_advance,
    Source.after_advance, Source.fetched]

/-! ## The flags of a subtraction (43_arithmetic.md R173) -/

theorem subtract_regsAlone (a b : Byte) (s : State) : s.RegsAlone (subtract a b s).2 :=
  ((((State.RegsAlone.refl s).setFlag _ _).setFlag _ _).setFlag _ _).setFlag _ _

theorem subtract_slot (a b : Byte) (s : State) {q : Slot} (hq : q ≠ .f) : (subtract a b s).2.slot q = s.slot q := by
  simp [subtract, State.slot_setFlag_ne _ _ _ hq]

/-- A subtraction writes all four flags, H and C as unsigned comparisons. -/
theorem subtract_flag (a b : Byte) (s : State) (f : Flag) :
    (subtract a b s).2.flag f =
      match f with
      | .z => a - b == 0
      | .n => true
      | .h => decide (a.toNat % 16 < b.toNat % 16)
      | .c => decide (a.toNat < b.toNat) := by
  cases f <;> simp [subtract, State.flag_setFlag, ← and_low_lt, BitVec.lt_def]

/-! ## SUB and CP (43_arithmetic.md R199 to R207, R217 to R225) -/

/-- The state CP of `n` bytes leaves when its source can be read: the flags of the subtraction. -/
def State.compared (s : State) (x : Source) (n : Word) : State :=
  (subtract (s.slot .a) (x.value s) (x.fetched s n)).2

/-- The state SUB of `n` bytes leaves when its source can be read: the same flags, and the difference in A. -/
def State.subtracted (s : State) (x : Source) (n : Word) : State :=
  (s.compared x n).setSlot .a (s.slot .a - x.value s)

theorem exec_subtracted {i : Instr} {x : Source} (hbody : bodyOf i = subFromA x) {s : State} (hx : x.readable s = true) :
    exec i s = .next (s.subtracted x (BitVec.ofNat 16 i.length)) := by
  rw [exec_source (congrFun hbody) hx, Source.fetched_slot]
  rfl

theorem exec_compared {i : Instr} {x : Source} (hbody : bodyOf i = compareA x) {s : State} (hx : x.readable s = true) :
    exec i s = .next (s.compared x (BitVec.ofNat 16 i.length)) := by
  rw [exec_source (congrFun hbody) hx, Source.fetched_slot]
  rfl

theorem State.compared_regsAlone (s : State) (x : Source) (n : Word) : (x.fetched s n).RegsAlone (s.compared x n) :=
  subtract_regsAlone _ _ _

theorem State.slot_compared (s : State) (x : Source) (n : Word) {q : Slot} (hq : q ≠ .f) :
    (s.compared x n).slot q = s.slot q := by
  rw [State.compared, subtract_slot _ _ _ hq, Source.fetched_slot]

theorem State.flag_compared (s : State) (x : Source) (n : Word) (f : Flag) :
    (s.compared x n).flag f =
      match f with
      | .z => s.slot .a - x.value s == 0
      | .n => true
      | .h => decide ((s.slot .a).toNat % 16 < (x.value s).toNat % 16)
      | .c => decide ((s.slot .a).toNat < (x.value s).toNat) :=
  subtract_flag _ _ _ f

/-- A holds no flag: SUB leaves the flags CP leaves. -/
theorem State.flag_subtracted (s : State) (x : Source) (n : Word) (f : Flag) :
    (s.subtracted x n).flag f = (s.compared x n).flag f :=
  State.flag_setSlot_ne _ (by decide) _ f

theorem State.slot_subtracted_a (s : State) (x : Source) (n : Word) :
    (s.subtracted x n).slot .a = s.slot .a - x.value s :=
  State.slot_setSlot_self _ .a _

theorem State.slot_subtracted_ne (s : State) (x : Source) (n : Word) {q : Slot} (ha : q ≠ .a) (hf : q ≠ .f) :
    (s.subtracted x n).slot q = s.slot q :=
  (State.slot_setSlot_ne _ ha _).trans (s.slot_compared x n hf)

/-- What SUB does when its source can be read. -/
theorem exec_sub_result {i : Instr} (x : Source) (hbody : bodyOf i = subFromA x) (s : State) (hx : x.readable s = true) :
    ∃ t, exec i s = .next t ∧ t = { x.after s with regs := t.regs, pc := s.pc + BitVec.ofNat 16 i.length } ∧
      t.slot .a = s.slot .a - x.value s ∧ (∀ q, q ≠ .a → q ≠ .f → t.slot q = s.slot q) ∧
      t.flag .z = (s.slot .a - x.value s == 0) ∧ t.flag .n = true ∧
      t.flag .h = decide ((s.slot .a).toNat % 16 < (x.value s).toNat % 16) ∧
      t.flag .c = decide ((s.slot .a).toNat < (x.value s).toNat) := by
  refine ⟨_, exec_subtracted hbody hx, Source.regsAlone_fetched ((s.compared_regsAlone x _).setSlot _ _),
    s.slot_subtracted_a x _, fun _ => s.slot_subtracted_ne x _, ?_⟩
  simp only [State.flag_subtracted, State.flag_compared, and_self]

/-- Settles O41: each listed instruction comes with its source and its length. -/
theorem subtractResult : Obligations.SubtractResult := by
  unfold Obligations.SubtractResult
  intro s d x hx
  simp only [List.mem_cons, List.not_mem_nil, or_false] at hx
  rcases hx with rfl | rfl | rfl | rfl | rfl | rfl | rfl | rfl | rfl <;> exact exec_sub_result _ rfl s

/-- What CP does when its source can be read, beside SUB `j` of the same source. -/
theorem exec_compare_result {i j : Instr} (x : Source) (hi : bodyOf i = compareA x) (hj : bodyOf j = subFromA x) (s : State)
    (hx : x.readable s = true) :
    ∃ t u, exec i s = .next t ∧ exec j s = .next u ∧
      t = { x.after s with regs := t.regs, pc := s.pc + BitVec.ofNat 16 i.length } ∧
      (∀ q, q ≠ .f → t.slot q = s.slot q) ∧ u.slot .a = s.slot .a - x.value s ∧ (∀ f, t.flag f = u.flag f) ∧
      t.flag .z = (s.slot .a - x.value s == 0) ∧ t.flag .z = (s.slot .a == x.value s) ∧ t.flag .n = true ∧
      t.flag .h = decide ((s.slot .a).toNat % 16 < (x.value s).toNat % 16) ∧
      t.flag .c = decide ((s.slot .a).toNat < (x.value s).toNat) := by
  have hzero : (s.slot .a - x.value s == 0) = (s.slot .a == x.value s) := by
    rw [Bool.eq_iff_iff, beq_iff_eq, beq_iff_eq, sub_eq_zero]
  refine ⟨_, _, exec_compared hi hx, exec_subtracted hj hx, Source.regsAlone_fetched (s.compared_regsAlone x _),
    fun _ => s.slot_compared x _, s.slot_subtracted_a x _, fun f => ?_, ?_⟩
  · simp only [State.flag_subtracted, State.flag_compared]
  · simp only [State.flag_compared, hzero, and_self]

/-- Settles O43: each listed pair of instructions comes with its source and the length of CP. -/
theorem compareResult : Obligations.CompareResult := by
  unfold Obligations.CompareResult
  intro s d x hx
  simp only [List.mem_cons, List.not_mem_nil, or_false] at hx
  rcases hx with rfl | rfl | rfl | rfl | rfl | rfl | rfl | rfl | rfl <;> exact exec_compare_result _ rfl rfl s

/-! ## XOR (43_arithmetic.md R175, R208 to R216) -/

/-- The state XOR of `n` bytes leaves when its source can be read. -/
def State.xored (s : State) (x : Source) (n : Word) : State :=
  ((x.fetched s n).setFlag .z (s.slot .a ^^^ x.value s == 0)).setSlot .a (s.slot .a ^^^ x.value s)

theorem exec_xored {i : Instr} {x : Source} (hbody : bodyOf i = xorIntoA x) {s : State} (hx : x.readable s = true) :
    exec i s = .next (s.xored x (BitVec.ofNat 16 i.length)) := by
  rw [exec_source (congrFun hbody) hx, Source.fetched_slot]
  rfl

theorem State.slot_xored_ne (s : State) (x : Source) (n : Word) {q : Slot} (ha : q ≠ .a) (hf : q ≠ .f) :
    (s.xored x n).slot q = s.slot q := by
  rw [State.xored, State.slot_setSlot_ne _ ha, State.slot_setFlag_ne _ _ _ hf, Source.fetched_slot]

theorem State.flag_xored (s : State) (x : Source) (n : Word) (f : Flag) :
    (s.xored x n).flag f = if f = .z then s.slot .a ^^^ x.value s == 0 else s.flag f := by
  rw [State.xored, State.flag_setSlot_ne _ (by decide), State.flag_setFlag, Source.fetched_flag]

/-- What XOR does when its source can be read. -/
theorem exec_xor_result {i : Instr} (x : Source) (hbody : bodyOf i = xorIntoA x) (s : State) (hx : x.readable s = true) :
    ∃ t, exec i s = .next t ∧ t = { x.after s with regs := t.regs, pc := s.pc + BitVec.ofNat 16 i.length } ∧
      t.slot .a = s.slot .a ^^^ x.value s ∧ (∀ q, q ≠ .a → q ≠ .f → t.slot q = s.slot q) ∧
      t.flag .z = (s.slot .a ^^^ x.value s == 0) ∧ t.flag .n = s.flag .n ∧ t.flag .h = s.flag .h ∧
      t.flag .c = s.flag .c :=
  ⟨_, exec_xored hbody hx, Source.regsAlone_fetched (((State.RegsAlone.refl _).setFlag _ _).setSlot _ _),
    State.slot_setSlot_self _ .a _, fun _ => s.slot_xored_ne x _, s.flag_xored x _ .z, s.flag_xored x _ .n,
    s.flag_xored x _ .h, s.flag_xored x _ .c⟩

/-- Settles O42: each listed instruction comes with its source and its length. -/
theorem xorResult : Obligations.XorResult := by
  unfold Obligations.XorResult
  intro s d x hx
  simp only [List.mem_cons, List.not_mem_nil, or_false] at hx
  rcases hx with rfl | rfl | rfl | rfl | rfl | rfl | rfl | rfl | rfl <;> exact exec_xor_result _ rfl s

end Sys2Proof.Machine

/-! PROOFS of the statements on 44_rotate.md. RLA and RL r. -/

namespace Sys2Proof.Machine

/-! ## The shift through C (44_rotate.md R230) -/

/-- The result of a rotate of the slot: its byte shifted left by one, with the old C in bit 0. -/
def State.shifted (s : State) (r : Slot) : Byte := (s.slot r <<< 1) ||| (if s.flag .c then 1 else 0)

/-- The state after a rotate has written C and Z, before N and H. -/
def State.shiftFlagged (s : State) (r : Slot) : State :=
  (s.setFlag .c ((s.slot r).getLsbD 7)).setFlag .z (s.shifted r == 0)

/-- The state a rotate of the slot leaves. -/
def State.rotated (s : State) (r : Slot) : State := (rotateNH (s.shiftFlagged r)).setSlot r (s.shifted r)

theorem rotateSlot_eq (r : Slot) (s : State) : rotateSlot r s = .ok () (s.rotated r) := rfl

theorem shiftLeft_or_toNat : ∀ (v : Byte) (cin : Bool),
    ((v <<< 1) ||| (if cin then 1 else 0)).toNat = (2 * v.toNat) % 256 + cin.toNat := by
  decide

theorem State.shifted_toNat (s : State) (r : Slot) :
    (s.shifted r).toNat = (2 * (s.slot r).toNat) % 256 + (s.flag .c).toNat := shiftLeft_or_toNat _ _

/-- The old bit 7, as a bound of the byte. -/
theorem getLsbD_seven (v : Byte) : v.getLsbD 7 = decide (128 ≤ v.toNat) := BitVec.msb_eq_decide v

/-! ## The flags N and H (44_rotate.md R230) -/

theorem rotateNH_of_draw {s : State} (h : s.config.rlNH = .draw) : rotateNH s = (s.drawFlag .n).drawFlag .h := by
  rw [rotateNH, h]

theorem rotateNH_of_unchanged {s : State} (h : s.config.rlNH = .unchanged) : rotateNH s = s := by
  rw [rotateNH, h]

theorem rotateNH_of_cleared {s : State} (h : s.config.rlNH = .cleared) :
    rotateNH s = (s.setFlag .n false).setFlag .h false := by
  rw [rotateNH, h]

/-- In each mode the flags other than N and H stay. -/
theorem rotateNH_flag {f : Flag} (hn : f ≠ .n) (hh : f ≠ .h) (s : State) : (rotateNH s).flag f = s.flag f := by
  cases hmode : s.config.rlNH with
  | draw => rw [rotateNH_of_draw hmode, State.flag_drawFlag, if_neg hh, State.flag_drawFlag, if_neg hn]
  | unchanged => rw [rotateNH_of_unchanged hmode]
  | cleared => rw [rotateNH_of_cleared hmode, State.flag_setFlag, if_neg hh, State.flag_setFlag, if_neg hn]

/-! ## The state a rotate leaves -/

/-- The state with another register file and another count of free values taken. -/
def State.withRegsDraws (s : State) (regs : Regs) (draws : Nat) : State := { s with regs, draws }

theorem State.withRegsDraws_setSlot (s : State) (r : Slot) (v : Byte) (regs : Regs) (draws : Nat) :
    (s.setSlot r v).withRegsDraws regs draws = s.withRegsDraws regs draws := by
  cases r <;> rfl

theorem State.withRegsDraws_setFlag (s : State) (f : Flag) (on : Bool) (regs : Regs) (draws : Nat) :
    (s.setFlag f on).withRegsDraws regs draws = s.withRegsDraws regs draws := s.withRegsDraws_setSlot .f _ _ _

theorem State.withRegsDraws_drawFlag (s : State) (f : Flag) (regs : Regs) (draws : Nat) :
    (s.drawFlag f).withRegsDraws regs draws = s.withRegsDraws regs draws :=
  s.withRegsDraws_setFlag f (Config.freeFlag s.draws) _ _

section
variable (s : State) (r : Slot)

@[simp] theorem State.shiftFlagged_config : (s.shiftFlagged r).config = s.config := by simp [State.shiftFlagged]
@[simp] theorem State.shiftFlagged_draws : (s.shiftFlagged r).draws = s.draws := by simp [State.shiftFlagged]

/-- The shift itself writes C and Z alone. -/
theorem State.shiftFlagged_flag (f : Flag) :
    (s.shiftFlagged r).flag f =
      match f with
      | .z => s.shifted r == 0
      | .c => decide (128 ≤ (s.slot r).toNat)
      | .n => s.flag .n
      | .h => s.flag .h := by
  cases f with
  | c => rw [State.shiftFlagged, State.flag_setFlag, if_neg (by decide), State.flag_setFlag, if_pos rfl, getLsbD_seven]
  | z | n | h => simp [State.shiftFlagged, State.flag_setFlag]

/-- A rotate changes the register file and the count of free values alone: with those of its result in their place, no update
of its sub-steps makes a difference. -/
theorem State.rotated_eq : s.rotated r = { s with regs := (s.rotated r).regs, draws := (s.rotated r).draws } :=
  rotateSlot_preserves (r := r) (g := (State.withRegsDraws · (s.rotated r).regs (s.rotated r).draws))
    (fun u f on => u.withRegsDraws_setFlag f on _ _) (fun u f => u.withRegsDraws_drawFlag f _ _)
    (fun u v => u.withRegsDraws_setSlot r v _ _) s

variable {r}

theorem State.slot_rotated_ne {q : Slot} (hq : q ≠ r) (hf : q ≠ .f) : (s.rotated r).slot q = s.slot q :=
  rotateSlot_slot r s q hq hf

variable (hr : r ≠ .f)
include hr

theorem State.slot_rotated_self : (s.rotated r).slot r = s.shifted r := by
  rw [State.rotated, State.slot_setSlot_self, if_neg hr]

/-- The slot holds no flag: the flags are those N and H were settled to. -/
theorem State.flag_rotated (f : Flag) : (s.rotated r).flag f = (rotateNH (s.shiftFlagged r)).flag f :=
  State.flag_setSlot_ne _ hr _ f

theorem State.flag_rotated_c : (s.rotated r).flag .c = decide (128 ≤ (s.slot r).toNat) := by
  rw [s.flag_rotated hr, rotateNH_flag (by decide) (by decide), State.shiftFlagged_flag]

theorem State.flag_rotated_z : (s.rotated r).flag .z = ((s.rotated r).slot r == 0) := by
  rw [s.flag_rotated hr, rotateNH_flag (by decide) (by decide), State.shiftFlagged_flag, s.slot_rotated_self hr]

/-- Under Draw, N and H are the next two free values, in this order. -/
theorem State.rotated_of_draw (h : s.config.rlNH = .draw) :
    (s.rotated r).flag .n = Config.freeFlag s.draws ∧ (s.rotated r).flag .h = Config.freeFlag (s.draws + 1) ∧
      (s.rotated r).draws = s.draws + 2 := by
  have hmode := rotateNH_of_draw ((congrArg _ (s.shiftFlagged_config r)).trans h)
  refine ⟨?_, ?_, ?_⟩
  · simp [s.flag_rotated hr, hmode, State.flag_drawFlag]
  · simp [s.flag_rotated hr, hmode, State.flag_drawFlag, State.drawFlag_draws]
  · simp [State.rotated, hmode, State.drawFlag_draws]

theorem State.rotated_of_unchanged (h : s.config.rlNH = .unchanged) :
    (s.rotated r).flag .n = s.flag .n ∧ (s.rotated r).flag .h = s.flag .h ∧ (s.rotated r).draws = s.draws := by
  have hmode := rotateNH_of_unchanged ((congrArg _ (s.shiftFlagged_config r)).trans h)
  refine ⟨?_, ?_, ?_⟩
  · rw [s.flag_rotated hr, hmode, State.shiftFlagged_flag]
  · rw [s.flag_rotated hr, hmode, State.shiftFlagged_flag]
  · simp [State.rotated, hmode]

theorem State.rotated_of_cleared (h : s.config.rlNH = .cleared) :
    (s.rotated r).flag .n = false ∧ (s.rotated r).flag .h = false ∧ (s.rotated r).draws = s.draws := by
  have hmode := rotateNH_of_cleared ((congrArg _ (s.shiftFlagged_config r)).trans h)
  refine ⟨?_, ?_, ?_⟩
  · simp [s.flag_rotated hr, hmode, State.flag_setFlag]
  · simp [s.flag_rotated hr, hmode, State.flag_setFlag]
  · simp [State.rotated, hmode]

end

/-! ## RLA and RL r (44_rotate.md R231 to R238) -/

/-- What an instruction with the sub-steps of RL r does. -/
theorem exec_rotate_result {i : Instr} {r : Slot} (hbody : bodyOf i = rotateSlot r) (hr : r ≠ .f) (s : State) :
    ∃ t, exec i s = .next t ∧ t = { s with regs := t.regs, pc := s.pc + BitVec.ofNat 16 i.length, draws := t.draws } ∧
      (t.slot r).toNat = (2 * (s.slot r).toNat) % 256 + (s.flag .c).toNat ∧
      (∀ q, q ≠ r → q ≠ .f → t.slot q = s.slot q) ∧
      t.flag .c = decide (128 ≤ (s.slot r).toNat) ∧ t.flag .z = (t.slot r == 0) ∧
      (s.config.rlNH = .draw →
        t.flag .n = Config.freeFlag s.draws ∧ t.flag .h = Config.freeFlag (s.draws + 1) ∧ t.draws = s.draws + 2) ∧
      (s.config.rlNH = .unchanged → t.flag .n = s.flag .n ∧ t.flag .h = s.flag .h ∧ t.draws = s.draws) ∧
      (s.config.rlNH = .cleared → t.flag .n = false ∧ t.flag .h = false ∧ t.draws = s.draws) := by
  have hexec : exec i s = .next ((s.advance (BitVec.ofNat 16 i.length)).rotated r) := exec_next (by rw [hbody, rotateSlot_eq])
  refine ⟨_, hexec, State.rotated_eq _ r, ?_, fun q hq hf => ?_, ?_, State.flag_rotated_z _ hr,
    State.rotated_of_draw (s.advance _) hr, State.rotated_of_unchanged (s.advance _) hr,
    State.rotated_of_cleared (s.advance _) hr⟩
  · rw [State.slot_rotated_self _ hr, State.shifted_toNat, State.slot_advance, State.flag_advance]
  · rw [State.slot_rotated_ne _ hq hf, State.slot_advance]
  · rw [State.flag_rotated_c _ hr, State.slot_advance]

/-- Settles O44: each listed instruction comes with its slot and its length. -/
theorem rotateResult : Obligations.RotateResult := by
  unfold Obligations.RotateResult
  intro s x hx
  simp only [List.mem_cons, List.not_mem_nil, or_false] at hx
  rcases hx with rfl | rfl | rfl | rfl | rfl | rfl | rfl | rfl <;> exact exec_rotate_result rfl (by nofun) s

end Sys2Proof.Machine

/-! PROOFS of the statement on 45_nop.md. NOP. -/

namespace Sys2Proof.Machine

/-- Settles O45: NOP has no sub-steps, so what it leaves is the state with PC moved past its one byte. -/
theorem noOperation : Obligations.NoOperation := by
  unfold Obligations.NoOperation
  intro s
  have hbody : bodyOf .nop (s.advance (BitVec.ofNat 16 Instr.nop.length)) = .ok () (s.advance 1) := rfl
  exact exec_next hbody

end Sys2Proof.Machine

/-! PROOFS of the statement on 70_reset_and_hazards.md. The end of a run. -/

namespace Sys2Proof.Machine

/-- JR with offset -2 jumps to its own address: the offset undoes the move past its two bytes (41_jumps_calls.md R141). -/
theorem exec_jr_to_itself (s : State) : exec (.jr 0xFE) s = .next s := by
  have hpc : s.pc + 2 + sext16 0xFE = s.pc := by
    rw [show sext16 0xFE = -2 by decide, BitVec.add_neg_eq_sub, BitVec.add_sub_cancel]
  rw [exec_jumpRelative (k := .always) rfl rfl, ← relative_target, hpc]
  rfl

/-- At the end of a run a step runs the jump to its own address, so it leaves what the fetch of the two bytes left. -/
theorem step_of_atEnd {s : State} (h : s.atEnd) : step s = .next (s.afterFetch 2) := by
  obtain ⟨hr, hm, h0, h1⟩ := h
  have hb : s.codeBytes 2 = [0x18, 0xFE] := by rw [← h0, ← h1]; rfl
  rw [step_of_makes (e := .imm8 .jr) hr rfl (.imm8 _ 0xFE) hm hb]
  exact exec_jr_to_itself _

/-- Settles O59: the fetch is all that a step at the end of a run leaves, and it takes nothing but draws, with plain storage not
even those. -/
theorem endOfRunIsAFixedPoint : Obligations.EndOfRunIsAFixedPoint := by
  unfold Obligations.EndOfRunIsAFixedPoint
  intro s h
  exact ⟨s.afterFetch 2, step_of_atEnd h, s.afterFetch_eq 2,
    fun hio => State.afterFetch_of_not_delegated fun _ _ => delegated_storage hio _⟩

end Sys2Proof.Machine
